-- ==== Sys2Proof/Word.lean ====
section
/-!
DEFINITION. The word types of the hardware (10_state.md R20 to R29, 30_encoding.md R71).
-/

namespace Sys2Proof

/-- A memory cell, a general register or a timer: 8 bits. -/
abbrev Byte := BitVec 8

/-- An instruction word, a program counter, the index register, a stack entry: 16 bits. -/
abbrev Word := BitVec 16

/-- The number of a general register, the X or Y field of an instruction word: 4 bits, every value legal (R73). -/
abbrev Reg := BitVec 4

/-- A logical key, 0x0 to 0xF (R160). -/
abbrev Key := BitVec 4

/-- VF, register 15, the flag register (R21). -/
abbrev Reg.vf : Reg := 0xF#4

end Sys2Proof
end

