-- ==== Sys2Proof/Config.lean ====
section
/-!
DEFINITION. What the implementation fixes (00_scope.md R5) and the free values. The sizes that are part of a type
(16 registers, 16 stack entries, 64 columns, 32 rows, the widths) stand as numerals in State and Word.
-/

namespace Sys2Proof

/-- MEM_SIZE: the valid addresses are 0 to 4095 (R5, R50). -/
def Config.memSize : Nat := 4096

/-- LOAD_ADDR of the reset state, 0x200 unless a launch names another (R5, R35, D2). -/
def Config.loadAddr : Word := 0x200#16

/-- FONT_BASE: the address of glyph 0 (R5, R52). -/
def Config.fontBase : Word := 0x050#16

/-- GLYPH_BYTES: the bytes of one glyph (R5, R52). -/
def Config.glyphBytes : Word := 5#16

/-- An event of the outside world that falls between two Steps (R6): one elapsed 1/60 second, or the key scanner
writing both values of InputState (an update that leaves one of them alone writes what it held). A key is 0x0 to 0xF
by its type, the host's duty of R230. -/
inductive EnvEvent where
  | tick
  | input (cur new : Option Key)
  deriving DecidableEq, Repr

/-- FREE VALUE (log 5): the byte that RND gives at its n-th sample (R131, D18). It has no body a proof can see. -/
opaque Config.rnd : Nat → Byte

/-- FREE VALUE (log 3): the Ticks and Input updates, in order, that fall before the n-th Step and after the one before
it (R6, R160, R175, D27). It has no body a proof can see, so a claim holds for every interleaving. -/
opaque Config.arrivals : Nat → List EnvEvent

end Sys2Proof
end

