-- ==== Sys2Proof/Syntax.lean ====
section
/-!
DEFINITION. The instruction set (30_encoding.md R75), one constructor per row of the opcode table, and the request
that starts a session (70_reset_and_hazards.md R213).
-/

namespace Sys2Proof

/-- The 34 instructions of 30_encoding.md R75, in the table's order. A constructor carries every field its row
leaves free, so `shrVx` and `shlVx` keep the Y they ignore (R77): a word is read back from its instruction whole. -/
inductive Instr where
  /-- 00E0, R151. -/
  | cls
  /-- 00EE, R100. -/
  | ret
  /-- 1NNN, R101. -/
  | jpNNN (nnn : BitVec 12)
  /-- 2NNN, R102. -/
  | callNNN (nnn : BitVec 12)
  /-- 3XNN, R105. -/
  | seVxNN (x : Reg) (nn : Byte)
  /-- 4XNN, R106. -/
  | sneVxNN (x : Reg) (nn : Byte)
  /-- 5XY0, R107. -/
  | seVxVy (x y : Reg)
  /-- 6XNN, R120. -/
  | ldVxNN (x : Reg) (nn : Byte)
  /-- 7XNN, R121. -/
  | addVxNN (x : Reg) (nn : Byte)
  /-- 8XY0, R122. -/
  | ldVxVy (x y : Reg)
  /-- 8XY1, R123. -/
  | orVxVy (x y : Reg)
  /-- 8XY2, R124. -/
  | andVxVy (x y : Reg)
  /-- 8XY3, R132. -/
  | xorVxVy (x y : Reg)
  /-- 8XY4, R126. -/
  | addVxVy (x y : Reg)
  /-- 8XY5, R127. -/
  | subVxVy (x y : Reg)
  /-- 8XY6, R128; Y is ignored. -/
  | shrVx (x y : Reg)
  /-- 8XY7, R129. -/
  | subnVxVy (x y : Reg)
  /-- 8XYE, R130; Y is ignored. -/
  | shlVx (x y : Reg)
  /-- 9XY0, R108. -/
  | sneVxVy (x y : Reg)
  /-- ANNN, R141. -/
  | ldINNN (nnn : BitVec 12)
  /-- BNNN, R104. -/
  | jpV0NNN (nnn : BitVec 12)
  /-- CXNN, R131. -/
  | rndVxNN (x : Reg) (nn : Byte)
  /-- DXYN, R152. -/
  | drwVxVyN (x y : Reg) (n : BitVec 4)
  /-- EX9E, R161. -/
  | skpVx (x : Reg)
  /-- EXA1, R162. -/
  | sknpVx (x : Reg)
  /-- FX07, R171. -/
  | ldVxDT (x : Reg)
  /-- FX0A, R163. -/
  | ldVxK (x : Reg)
  /-- FX15, R172. -/
  | ldDTVx (x : Reg)
  /-- FX18, R173. -/
  | ldSTVx (x : Reg)
  /-- FX1E, R142. -/
  | addIVx (x : Reg)
  /-- FX29, R143. -/
  | ldFVx (x : Reg)
  /-- FX33, R145. -/
  | ldBVx (x : Reg)
  /-- FX55, R146. -/
  | ldMemVx (x : Reg)
  /-- FX65, R147. -/
  | ldVxMem (x : Reg)
  deriving DecidableEq, Repr

/-- What starts a session: the load address and the program image (00_scope.md section 6, R210). -/
structure Launch where
  loadAddr : Nat
  image : List Byte
  deriving DecidableEq, Repr

end Sys2Proof
end

