-- ==== Sys2Proof/WellFormed.lean ====
section
/-!
DEFINITION. The checks on the terms of the syntax. An `Instr` needs none: each field has the width of its row's
field by its type, and every value of a field is legal (30_encoding.md R73, R77). A `Launch` must meet the premises
of 70_reset_and_hazards.md R213.
-/

namespace Sys2Proof

/-- 0x200 ≤ LOAD_ADDR: the image stays out of the reserved range (R213 premise 1, D2). -/
def Launch.aboveReserved (l : Launch) : Bool := decide (0x200 ≤ l.loadAddr)

/-- LOAD_ADDR ≤ 0xFFE: the first fetch is inside memory (00_scope.md R5, D2). -/
def Launch.entryInRange (l : Launch) : Bool := decide (l.loadAddr ≤ 0xFFE)

/-- LOAD_ADDR + len(image) − 1 ≤ 0xFFF: the image ends inside memory (R213 premise 1, D30). -/
def Launch.imageFits (l : Launch) : Bool := decide (l.loadAddr + l.image.length ≤ Config.memSize)

/-- A launch the spec gives a meaning to (R213). -/
def Launch.wellFormed (l : Launch) : Bool := l.aboveReserved && l.entryInRange && l.imageFits

end Sys2Proof
end

