-- ==== Sys2Proof/Decode.lean ====
section
/-!
DEFINITION. The InstructionDecoder (30_encoding.md): fields, opcode map, decoder, and the encoder.
-/

namespace Sys2Proof

/-- The fields of an instruction word (R71); all are taken from every word, and they overlap. -/
structure Fields where
  type : BitVec 4
  x : Reg
  y : Reg
  n : BitVec 4
  nn : Byte
  nnn : BitVec 12
  deriving DecidableEq, Repr

/-- The field places of R71: type op[15:12], X op[11:8], Y op[7:4], N op[3:0], NN op[7:0], NNN op[11:0]. -/
def Fields.ofWord (op : Word) : Fields where
  type := op.extractLsb' 12 4
  x := op.extractLsb' 8 4
  y := op.extractLsb' 4 4
  n := op.extractLsb' 0 4
  nn := op.extractLsb' 0 8
  nnn := op.extractLsb' 0 12

/-- One row of the opcode map (R75): the fixed bits, their values, and the instruction the fields spell. -/
structure Row where
  mask : Word
  pat : Word
  build : Fields → Instr

/-- The rows of types 0 to 7 (R75). -/
def rowsLow : List Row := [
  ⟨0xFFFF#16, 0x00E0#16, fun _ => .cls⟩,
  ⟨0xFFFF#16, 0x00EE#16, fun _ => .ret⟩,
  ⟨0xF000#16, 0x1000#16, fun f => .jpNNN f.nnn⟩,
  ⟨0xF000#16, 0x2000#16, fun f => .callNNN f.nnn⟩,
  ⟨0xF000#16, 0x3000#16, fun f => .seVxNN f.x f.nn⟩,
  ⟨0xF000#16, 0x4000#16, fun f => .sneVxNN f.x f.nn⟩,
  ⟨0xF00F#16, 0x5000#16, fun f => .seVxVy f.x f.y⟩,
  ⟨0xF000#16, 0x6000#16, fun f => .ldVxNN f.x f.nn⟩,
  ⟨0xF000#16, 0x7000#16, fun f => .addVxNN f.x f.nn⟩]

/-- The rows of types 8 and 9 (R75). -/
def rowsAlu : List Row := [
  ⟨0xF00F#16, 0x8000#16, fun f => .ldVxVy f.x f.y⟩,
  ⟨0xF00F#16, 0x8001#16, fun f => .orVxVy f.x f.y⟩,
  ⟨0xF00F#16, 0x8002#16, fun f => .andVxVy f.x f.y⟩,
  ⟨0xF00F#16, 0x8003#16, fun f => .xorVxVy f.x f.y⟩,
  ⟨0xF00F#16, 0x8004#16, fun f => .addVxVy f.x f.y⟩,
  ⟨0xF00F#16, 0x8005#16, fun f => .subVxVy f.x f.y⟩,
  ⟨0xF00F#16, 0x8006#16, fun f => .shrVx f.x f.y⟩,
  ⟨0xF00F#16, 0x8007#16, fun f => .subnVxVy f.x f.y⟩,
  ⟨0xF00F#16, 0x800E#16, fun f => .shlVx f.x f.y⟩,
  ⟨0xF00F#16, 0x9000#16, fun f => .sneVxVy f.x f.y⟩]

/-- The rows of types A to E (R75). -/
def rowsMid : List Row := [
  ⟨0xF000#16, 0xA000#16, fun f => .ldINNN f.nnn⟩,
  ⟨0xF000#16, 0xB000#16, fun f => .jpV0NNN f.nnn⟩,
  ⟨0xF000#16, 0xC000#16, fun f => .rndVxNN f.x f.nn⟩,
  ⟨0xF000#16, 0xD000#16, fun f => .drwVxVyN f.x f.y f.n⟩,
  ⟨0xF0FF#16, 0xE09E#16, fun f => .skpVx f.x⟩,
  ⟨0xF0FF#16, 0xE0A1#16, fun f => .sknpVx f.x⟩]

/-- The rows of type F (R75). -/
def rowsHigh : List Row := [
  ⟨0xF0FF#16, 0xF007#16, fun f => .ldVxDT f.x⟩,
  ⟨0xF0FF#16, 0xF00A#16, fun f => .ldVxK f.x⟩,
  ⟨0xF0FF#16, 0xF015#16, fun f => .ldDTVx f.x⟩,
  ⟨0xF0FF#16, 0xF018#16, fun f => .ldSTVx f.x⟩,
  ⟨0xF0FF#16, 0xF01E#16, fun f => .addIVx f.x⟩,
  ⟨0xF0FF#16, 0xF029#16, fun f => .ldFVx f.x⟩,
  ⟨0xF0FF#16, 0xF033#16, fun f => .ldBVx f.x⟩,
  ⟨0xF0FF#16, 0xF055#16, fun f => .ldMemVx f.x⟩,
  ⟨0xF0FF#16, 0xF065#16, fun f => .ldVxMem f.x⟩]

/-- The opcode map: the 34 rows of R75. -/
def opcodeRows : List Row := rowsLow ++ rowsAlu ++ rowsMid ++ rowsHigh

/-- A row is selected by a word whose fixed bits have the row's values: `op & mask = match` (R74). -/
def Row.selects (r : Row) (op : Word) : Bool := op &&& r.mask == r.pat

/-- Why a decoder answers no instruction. -/
inductive Reject where
  /-- The word matches no row of R75: an unrecognised pattern (R76). The machine runs it as a no-op (R97). -/
  | unrecognised (op : Word)
  /-- Fewer than the two bytes of an instruction (R70). The machine never decodes such a list. -/
  | truncated
  deriving DecidableEq, Repr

/-- The decoder (R74): the instruction of the row the word selects. The rows are pairwise disjoint, so their order
in the list does not matter. -/
def decode (op : Word) : Except Reject Instr :=
  match opcodeRows.find? (·.selects op) with
  | some r => .ok (r.build (Fields.ofWord op))
  | none => .error (.unrecognised op)

/-- The word of two bytes, high byte first (R54, R70). -/
def wordOfBytes (hi lo : Byte) : Word := hi ++ lo

/-- The two bytes of a word as they lie in memory, the high byte at the lower address (R54, R70). -/
def bytesOfWord (op : Word) : List Byte := [op.extractLsb' 8 8, op.extractLsb' 0 8]

/-- The decoder on bytes: the instruction of the first two, and the bytes after it. -/
def decodeBytes : List Byte → Except Reject (Instr × List Byte)
  | hi :: lo :: rest =>
    match decode (wordOfBytes hi lo) with
    | .ok i => .ok (i, rest)
    | .error e => .error e
  | _ => .error .truncated

/-- The encoder: the word of an instruction, laid out as R72 draws its format. -/
def encode : Instr → Word
  | .cls => 0x00E0#16
  | .ret => 0x00EE#16
  | .jpNNN nnn => 0x1#4 ++ nnn
  | .callNNN nnn => 0x2#4 ++ nnn
  | .seVxNN x nn => 0x3#4 ++ x ++ nn
  | .sneVxNN x nn => 0x4#4 ++ x ++ nn
  | .seVxVy x y => 0x5#4 ++ x ++ y ++ 0x0#4
  | .ldVxNN x nn => 0x6#4 ++ x ++ nn
  | .addVxNN x nn => 0x7#4 ++ x ++ nn
  | .ldVxVy x y => 0x8#4 ++ x ++ y ++ 0x0#4
  | .orVxVy x y => 0x8#4 ++ x ++ y ++ 0x1#4
  | .andVxVy x y => 0x8#4 ++ x ++ y ++ 0x2#4
  | .xorVxVy x y => 0x8#4 ++ x ++ y ++ 0x3#4
  | .addVxVy x y => 0x8#4 ++ x ++ y ++ 0x4#4
  | .subVxVy x y => 0x8#4 ++ x ++ y ++ 0x5#4
  | .shrVx x y => 0x8#4 ++ x ++ y ++ 0x6#4
  | .subnVxVy x y => 0x8#4 ++ x ++ y ++ 0x7#4
  | .shlVx x y => 0x8#4 ++ x ++ y ++ 0xE#4
  | .sneVxVy x y => 0x9#4 ++ x ++ y ++ 0x0#4
  | .ldINNN nnn => 0xA#4 ++ nnn
  | .jpV0NNN nnn => 0xB#4 ++ nnn
  | .rndVxNN x nn => 0xC#4 ++ x ++ nn
  | .drwVxVyN x y n => 0xD#4 ++ x ++ y ++ n
  | .skpVx x => 0xE#4 ++ x ++ 0x9E#8
  | .sknpVx x => 0xE#4 ++ x ++ 0xA1#8
  | .ldVxDT x => 0xF#4 ++ x ++ 0x07#8
  | .ldVxK x => 0xF#4 ++ x ++ 0x0A#8
  | .ldDTVx x => 0xF#4 ++ x ++ 0x15#8
  | .ldSTVx x => 0xF#4 ++ x ++ 0x18#8
  | .addIVx x => 0xF#4 ++ x ++ 0x1E#8
  | .ldFVx x => 0xF#4 ++ x ++ 0x29#8
  | .ldBVx x => 0xF#4 ++ x ++ 0x33#8
  | .ldMemVx x => 0xF#4 ++ x ++ 0x55#8
  | .ldVxMem x => 0xF#4 ++ x ++ 0x65#8

/-- The encoder to bytes as they lie in memory. -/
def encodeBytes (i : Instr) : List Byte := bytesOfWord (encode i)

/-- The word of a table row's bits: bit 0 is the least significant, the bits from `nbits` up are zero. -/
def tableWord (nbits w : Nat) : Word := BitVec.ofNat 16 (w % 2 ^ nbits)

/-- What the decoder reads from an instruction whose bits are `w`, laid out as the hardware stores it. -/
def decodeTableWord (nbits w : Nat) : Option Instr :=
  match decodeBytes (bytesOfWord (tableWord nbits w)) with
  | .ok (i, _) => some i
  | .error _ => none

end Sys2Proof
end

