-- ==== Sys2Proof/Machine/State.lean ====
section
/-!
DEFINITION. The state of the core (10_state.md R20 to R33) as plain data, its reset value (R35), and the reasons a
step can stop.
-/

namespace Sys2Proof.Machine

/-- MEM as the cells that differ from what reset leaves there (R28, R35): addresses rising, no cell equal to what an
unlisted address reads as (`Memory.wf` in Ops.lean). -/
abbrev Memory := List Host.Cell

/-- FB: 32 rows of 64 pixels, `fb[y][x]` the pixel in column x of row y (R32, R150). -/
abbrev Plane := Vector (Vector Bool 64) 32

/-- FAULT_CAUSE (R31, R181). The numeric codes are `Cause.code` in Ops.lean. -/
inductive Cause where
  | none
  | memoryOutOfRange
  | stackUnderflow
  | stackOverflow
  deriving DecidableEq, Repr

/-- The event a Step returns to the host (R90). -/
inductive Event where
  | none
  | unrecognised (op addr : Word)
  | fault (cause : Cause) (op addr : Word)
  | waiting
  deriving DecidableEq, Repr

/-- The state of the core, of InputState, and the model's own fields. -/
structure State where
  /-- V0 to VF (R20); `v[15]` is VF (R21). -/
  v : Vector Byte 16
  /-- I (R22). -/
  index : Word
  /-- PC (R23). -/
  pc : Word
  /-- STACK[0] to STACK[15] (R24). -/
  stack : Vector Word 16
  /-- SP, the number of live stack entries, 0 to 16 (R25). -/
  sp : Fin 17
  /-- DT (R26). -/
  dt : Byte
  /-- ST (R27). -/
  st : Byte
  /-- MEM (R28). -/
  mem : Memory
  /-- WAIT (R29). -/
  wait : Bool
  /-- WAITX (R29). -/
  waitX : Reg
  /-- HALT (R30). -/
  halt : Bool
  /-- FAULT_CAUSE (R31). -/
  faultCause : Cause
  /-- FAULT_PC (R31). -/
  faultPc : Word
  /-- FAULT_OP (R31). -/
  faultOp : Word
  /-- FB (R32). -/
  fb : Plane
  /-- KEY_CUR of InputState (R33). -/
  keyCur : Option Key
  /-- KEY_NEW of InputState (R33). -/
  keyNew : Option Key
  /-- The event of the last Step, an output latch that no step reads (R90, D24; log 2). -/
  event : Event
  /-- The model's own: how many Steps were delivered to, the argument of `Config.arrivals` (log 6). -/
  clock : Nat
  /-- The model's own: how many times RND was sampled, the argument of `Config.rnd` (log 6). -/
  rndCount : Nat
  deriving DecidableEq, Repr

/-- The machine right after reset, with nothing loaded (R35, R210): memory holds the font and zeros, which is what an
unlisted address reads as. `keyCur`, `keyNew`, `event`, `clock` and `rndCount` have no reset value in the spec
(log 2, log 4, log 6). -/
def State.reset : State where
  v := Vector.replicate 16 0#8
  index := 0#16
  pc := Config.loadAddr
  stack := Vector.replicate 16 0#16
  sp := 0
  dt := 0#8
  st := 0#8
  mem := []
  wait := false
  waitX := 0#4
  halt := false
  faultCause := .none
  faultPc := 0#16
  faultOp := 0#16
  fb := Vector.replicate 32 (Vector.replicate 64 false)
  keyCur := .none
  keyNew := .none
  event := .none
  clock := 0
  rndCount := 0

/-- The faults that stop the model: there are none. Every fault of the spec (60_exceptions.md R182, R183) has its
entry described (R185), so the model takes it as a next state with HALT set, and goes on as the spec says (R98);
log 1. That is safe: nothing the hardware does is cut off. -/
inductive Fault where
  deriving DecidableEq, Repr

/-- What the model gives no meaning to. -/
inductive Refusal where
  /-- Raised by an arm of `exec` whose instruction has no meaning yet; no arm does. Safe: nothing is claimed of it. -/
  | notModelled (mnemonic : String)
  /-- Raised by `launch` for a load address outside 0x200 to 0xFFE: the spec gives such a launch no meaning and says a
  model refuses it (R213, D2). Safe: nothing is claimed of it. -/
  | loadAddressOutOfRange
  /-- Raised by `launch` for an image that runs past 0xFFF: the spec gives such a launch no meaning and says a model
  refuses it (R213, D30). Safe: nothing is claimed of it. -/
  | imageTooLong
  deriving DecidableEq, Repr

/-- The outcome of a step of this machine. -/
abbrev Outcome := Host.Outcome State Fault Refusal

end Sys2Proof.Machine
end

