-- ==== Sys2Proof/Machine/Font.lean ====
section
/-!
DEFINITION. The font table (20_memory.md R52) and what an unlisted address of memory reads as (10_state.md R35).
-/

namespace Sys2Proof.Machine

/-- The glyphs of 0 to 7, PRESUMED: general knowledge the spec supplies and marks as such (R52, D20, G1; log 7). -/
def fontLow : List Byte :=
  [0xF0#8, 0x90#8, 0x90#8, 0x90#8, 0xF0#8] ++
  [0x20#8, 0x60#8, 0x20#8, 0x20#8, 0x70#8] ++
  [0xF0#8, 0x10#8, 0xF0#8, 0x80#8, 0xF0#8] ++
  [0xF0#8, 0x10#8, 0xF0#8, 0x10#8, 0xF0#8] ++
  [0x90#8, 0x90#8, 0xF0#8, 0x10#8, 0x10#8] ++
  [0xF0#8, 0x80#8, 0xF0#8, 0x10#8, 0xF0#8] ++
  [0xF0#8, 0x80#8, 0xF0#8, 0x90#8, 0xF0#8] ++
  [0xF0#8, 0x10#8, 0x20#8, 0x40#8, 0x40#8]

/-- The glyphs of 8 to F, PRESUMED as `fontLow` (R52; log 7). -/
def fontHigh : List Byte :=
  [0xF0#8, 0x90#8, 0xF0#8, 0x90#8, 0xF0#8] ++
  [0xF0#8, 0x90#8, 0xF0#8, 0x10#8, 0xF0#8] ++
  [0xF0#8, 0x90#8, 0xF0#8, 0x90#8, 0x90#8] ++
  [0xE0#8, 0x90#8, 0xE0#8, 0x90#8, 0xE0#8] ++
  [0xF0#8, 0x80#8, 0x80#8, 0x80#8, 0xF0#8] ++
  [0xE0#8, 0x90#8, 0x90#8, 0x90#8, 0xE0#8] ++
  [0xF0#8, 0x80#8, 0xF0#8, 0x80#8, 0xF0#8] ++
  [0xF0#8, 0x80#8, 0xF0#8, 0x80#8, 0x80#8]

/-- The 80 bytes at FONT_BASE, glyph d at 5·d (R52). -/
def fontTable : List Byte := fontLow ++ fontHigh

/-- What memory holds after reset, before the image: the font at 0x050 to 0x09F, zero elsewhere (R35, R51, R52, D4).
An address that memory does not list reads as this (log 8). -/
def unlistedByte (a : Nat) : Byte :=
  if 0x050 ≤ a then fontTable.getD (a - 0x050) 0#8 else 0#8

end Sys2Proof.Machine
end

