-- ==== Sys2Proof/Machine/Ops.lean ====
section
/-!
DEFINITION. The shared operations: memory, registers, the stack, the pixel plane, the inputs, the end of an
instruction, taking a fault, and the pieces of a Step that are no instruction's.
-/

namespace Sys2Proof.Machine

/-! ### Named updates of one field -/

/-- I <- w (R22). -/
def State.setIndex (s : State) (w : Word) : State := { s with index := w }

/-- DT <- b (R26). -/
def State.setDt (s : State) (b : Byte) : State := { s with dt := b }

/-- ST <- b (R27). -/
def State.setSt (s : State) (b : Byte) : State := { s with st := b }

/-- FB <- p (R32). -/
def State.setPlane (s : State) (p : Plane) : State := { s with fb := p }

/-- MEM <- m (R28). -/
def State.setMem (s : State) (m : Memory) : State := { s with mem := m }

/-! ### Memory (20_memory.md) -/

/-- The byte at an address: the listed one, else what reset left there (R57, R60). -/
def Memory.read : Memory → Nat → Byte
  | [], a => unlistedByte a
  | (k, b) :: m, a => if k = a then b else Memory.read m a

/-- A cell put in its place among rising addresses. -/
def Memory.place (a : Nat) (b : Byte) : Memory → Memory
  | [] => [(a, b)]
  | (k, c) :: m => if a < k then (a, b) :: (k, c) :: m else (k, c) :: Memory.place a b m

/-- One byte written (R57). A cell that goes back to what reset left there is no longer listed. -/
def Memory.write (m : Memory) (a : Nat) (b : Byte) : Memory :=
  if b = unlistedByte a then m.filter (·.1 != a) else Memory.place a b (m.filter (·.1 != a))

/-- Bytes written from an address upward, in order (R53, R56). -/
def Memory.writeBytes (m : Memory) (a : Nat) : List Byte → Memory
  | [] => m
  | b :: bs => Memory.writeBytes (m.write a b) (a + 1) bs

/-- The canonical form: addresses rise strictly, each is a valid address (R50), no cell equals what its address reads
as unlisted. -/
abbrev Memory.wf (m : Memory) : Prop :=
  m.Pairwise (fun c d => c.1 < d.1) ∧ ∀ c ∈ m, c.1 < Config.memSize ∧ c.2 ≠ unlistedByte c.1

/-- The range test of R53: the whole access lies in 0x000 to 0xFFF (R58, D6). -/
def inRange (addr n : Nat) : Bool := decide (addr + n ≤ Config.memSize)

/-- MemRead (R53) for n ≥ 1: nothing when the access leaves memory, else its bytes in ascending order. -/
def State.load (s : State) (addr n : Nat) : Option (List Byte) :=
  if inRange addr n then some ((List.range n).map fun k => s.mem.read (addr + k)) else none

/-- MemWrite (R53) for n ≥ 1: nothing when the access leaves memory, and then nothing is written (D8). -/
def State.store (s : State) (addr : Nat) (bytes : List Byte) : Option State :=
  if inRange addr bytes.length then some (s.setMem (s.mem.writeBytes addr bytes)) else none

/-! ### General registers (10_state.md R20) -/

/-- V[i]. -/
def State.reg (s : State) (x : Reg) : Byte := s.v[x.toNat]'x.isLt

/-- V[i] <- b. -/
def State.setReg (s : State) (x : Reg) (b : Byte) : State := { s with v := s.v.set x.toNat b x.isLt }

/-- A register file with V[k], V[k+1], … loaded from a list, as far as it goes; the other registers stay (R147). -/
def loadRegs (v : Vector Byte 16) (k : Nat) : List Byte → Vector Byte 16
  | [] => v
  | b :: bs => if h : k < 16 then loadRegs (v.set k b h) (k + 1) bs else v

/-- V0, V1, … <- bytes. -/
def State.setRegs (s : State) (bytes : List Byte) : State := { s with v := loadRegs s.v 0 bytes }

/-! ### The program counter and the end of an instruction (40_fetch_dispatch.md R92 to R94) -/

/-- The post-fetch PC (R92). -/
def State.npc (s : State) : Word := s.pc + 2#16

/-- The usual end of an instruction: PC = npc, event none (R93). -/
def State.done (s : State) : State := { s with pc := s.npc, event := .none }

/-- The end of a jump: PC = target, event none (R93). -/
def State.jump (s : State) (target : Word) : State := { s with pc := target, event := .none }

/-- The end of a skipping instruction (R94). -/
def State.skipIf (s : State) (taken : Bool) : State :=
  { s with pc := if taken then s.npc + 2#16 else s.npc, event := .none }

/-! ### Faults (60_exceptions.md) -/

/-- The codes of FAULT_CAUSE (R181). -/
def Cause.code : Cause → BitVec 2
  | .none => 0#2
  | .memoryOutOfRange => 1#2
  | .stackUnderflow => 2#2
  | .stackOverflow => 3#2

/-- Taking a fault (R185): the record is written, HALT set, everything else and PC stay. `s` is the state before the
Step and `op` the word it fetched. There is no return from it (R188). -/
def State.raise (s : State) (c : Cause) (op : Word) : State :=
  { s with faultCause := c, faultPc := s.pc, faultOp := op, halt := true, event := .fault c op s.pc }

/-! ### The call stack (10_state.md R24, R25) -/

/-- Push: nothing when the stack is at capacity (R25). -/
def State.push (s : State) (w : Word) : Option State :=
  if h : s.sp.val < 16 then
    some { s with stack := s.stack.set s.sp.val w h, sp := ⟨s.sp.val + 1, by omega⟩ }
  else none

/-- Pop: nothing when the stack is empty; the entry is not erased (R25). -/
def State.pop (s : State) : Option (Word × State) :=
  if 0 < s.sp.val then
    some (s.stack[s.sp.val - 1]'(by omega), { s with sp := ⟨s.sp.val - 1, by omega⟩ })
  else none

/-! ### The pixel plane (44_display.md) -/

/-- get(x, y) (R154); false outside the plane, where it is never called. -/
def Plane.get (p : Plane) (x y : Nat) : Bool :=
  if h : x < 64 ∧ y < 32 then (p[y]'h.2)[x]'h.1 else false

/-- set(x, y, b) (R154); nothing outside the plane, where it is never called. -/
def Plane.put (p : Plane) (x y : Nat) (b : Bool) : Plane :=
  if h : x < 64 ∧ y < 32 then p.set y ((p[y]'h.2).set x b h.1) h.2 else p

/-- clear() (R154). -/
def Plane.clear : Plane := Vector.replicate 32 (Vector.replicate 64 false)

/-- The plane under a draw, and whether a pixel went from 1 to 0 so far (R152). -/
structure Canvas where
  fb : Plane
  hit : Bool
  deriving DecidableEq, Repr

/-- One sprite bit at column x of row y: dropped beyond the right or bottom edge (EDGE_POLICY clip, D11), else
exclusive-or with the pixel there (R152). -/
def Canvas.drawBit (c : Canvas) (x y : Nat) (bit : Bool) : Canvas :=
  if bit ∧ x ≤ 63 ∧ y ≤ 31 then
    ⟨c.fb.put x y (!c.fb.get x y), c.hit || c.fb.get x y⟩
  else c

/-- The eight bits of a sprite row, most significant bit at column `ox` (R150, R152): the next `k` of them, from
column offset `8 - k` on. -/
def Canvas.drawBits (c : Canvas) (row : Byte) (ox y : Nat) : Nat → Canvas
  | 0 => c
  | k + 1 => Canvas.drawBits (c.drawBit (ox + (7 - k)) y (row.getLsbD k)) row ox y k

/-- The rows of a sprite, each one below the one before it, from row y on (R152). -/
def Canvas.drawRows (c : Canvas) (ox : Nat) : Nat → List Byte → Canvas
  | _, [] => c
  | y, row :: rows => Canvas.drawRows (c.drawBits row ox y 8) ox (y + 1) rows

/-- zext_8 of a key (R163). -/
def zextKey (k : Key) : Byte := k.setWidth 8

/-! ### Inputs (00_scope.md R6, R9, 45_keypad.md R160) -/

/-- RND counted as sampled: the next sample is another free byte (log 6). -/
def State.countRnd (s : State) : State := { s with rndCount := s.rndCount + 1 }

/-- Rand8() (R131): the next free byte. -/
def State.rand8 (s : State) : Byte × State := (Config.rnd s.rndCount, s.countRnd)

/-- KEY_NEW <- none. -/
def State.dropKey (s : State) : State := { s with keyNew := none }

/-- KeyConsume() (R160): KEY_NEW, which becomes none. -/
def State.keyConsume (s : State) : Option Key × State := (s.keyNew, s.dropKey)

/-- The suspension of FX0A (R163): WAIT set, X latched, PC stays on the instruction, event waiting. -/
def State.suspend (s : State) (x : Reg) : State := { s with wait := true, waitX := x, event := .waiting }

/-- A Step that still waits (R164): nothing but the event. -/
def State.stillWaiting (s : State) : State := { s with event := .waiting }

/-- The end of the suspension (R164): WAIT cleared, PC past the FX0A, event none. -/
def State.resume (s : State) : State := { s with wait := false, pc := s.npc, event := .none }

/-! ### The events between Steps (00_scope.md R6) -/

/-- A timer after n Ticks: counted down, never below 0, no reload (R174). -/
def countDown (t : Byte) (n : Nat) : Byte := if t = 0#8 then 0#8 else BitVec.ofNat 8 (t.toNat - n)

/-- Tick (R174), in every run state (D17). -/
def State.tick (s : State) : State :=
  { s with dt := if s.dt ≠ 0#8 then s.dt - 1#8 else s.dt, st := if s.st ≠ 0#8 then s.st - 1#8 else s.st }

/-- An Input update (R160): the host writes both values of InputState. -/
def State.inputUpdate (s : State) (cur new : Option Key) : State := { s with keyCur := cur, keyNew := new }

/-- One event of the outside world. -/
def State.applyEvent (s : State) : EnvEvent → State
  | .tick => s.tick
  | .input cur new => s.inputUpdate cur new

/-- How many Ticks are among the events. -/
def tickCount : List EnvEvent → Nat
  | [] => 0
  | .tick :: es => tickCount es + 1
  | .input _ _ :: es => tickCount es

/-- InputState after the events: the last update, if there is one. -/
def lastInput (io : Option Key × Option Key) : List EnvEvent → Option Key × Option Key
  | [] => io
  | .tick :: es => lastInput io es
  | .input cur new :: es => lastInput (cur, new) es

/-- The events before the next Step, delivered in order (R6, R175). It is written field by field so that the fields no
event touches are seen without knowing the events; `deliver_eq_foldl` in Laws says it is one event after another. -/
def State.deliver (s : State) : State :=
  { s with
    dt := countDown s.dt (tickCount (Config.arrivals s.clock))
    st := countDown s.st (tickCount (Config.arrivals s.clock))
    keyCur := (lastInput (s.keyCur, s.keyNew) (Config.arrivals s.clock)).1
    keyNew := (lastInput (s.keyCur, s.keyNew) (Config.arrivals s.clock)).2
    clock := s.clock + 1 }

/-! ### The pieces of a Step that belong to no instruction (40_fetch_dispatch.md) -/

/-- Fetch (R91): the word at PC, high byte first (R54); nothing when PC > 0xFFE. -/
def State.fetch (s : State) : Option Word :=
  match s.load s.pc.toNat 2 with
  | some [hi, lo] => some (wordOfBytes hi lo)
  | _ => none

/-- The fetch fault (R91): FAULT_OP is 0x0000. The event carries that 0x0000 as its op too: DESIGN CHOICE, since R185 writes
fault(cause, op, addr) there and no op exists when the fetch faults (log 16). -/
def State.fetchFault (s : State) : State := s.raise .memoryOutOfRange 0x0000#16

/-- The default arm (R97): a no-op that reports the word and its address. -/
def State.unrecognised (s : State) (op : Word) : State := { s with pc := s.npc, event := .unrecognised op s.pc }

/-- A Step of a halted core (R98): nothing, event none. -/
def State.haltedStep (s : State) : State := { s with event := .none }

/-- FX0A's later attempts (R164): no fetch, no decode. -/
def State.keyWaitRetry (s : State) : State :=
  match s.keyConsume with
  | (none, t) => t.stillWaiting
  | (some k, t) => (t.setReg t.waitX (zextKey k)).resume

/-! ### The start of a session (70_reset_and_hazards.md R210, R213) -/

/-- The reset state with an image in place and PC at its first byte; a launch that breaks a premise of R213 is
refused. -/
def launch (l : Launch) : Outcome :=
  if !(l.aboveReserved && l.entryInRange) then .refused .loadAddressOutOfRange
  else if !l.imageFits then .refused .imageTooLong
  else .next { State.reset with
    pc := BitVec.ofNat 16 l.loadAddr
    mem := State.reset.mem.writeBytes l.loadAddr l.image }

/-- Whether the host's tone generator sounds: PRESUMED, general knowledge the spec supplies (R176, D19, G2; log 15). An output
for the host; no rule of the core reads it. -/
def State.toneOn (s : State) : Bool := s.st != 0#8

end Sys2Proof.Machine
end

