-- ==== Sys2Proof/Machine/Operands.lean ====
section
/-!
DEFINITION. The operand forms (30_encoding.md R73, 43_index_memory.md R140): registers, widened values, the addresses
formed from I, a key compared with a register.
-/

namespace Sys2Proof.Machine

/-- zext_16 of a 12-bit address (R73). -/
def zextAddr (nnn : BitVec 12) : Word := nnn.setWidth 16

/-- zext_16 of a byte. -/
def zextByte (b : Byte) : Word := b.setWidth 16

/-- The base address I of a data access, an unbounded number (R140). -/
def State.base (s : State) : Nat := s.index.toNat

/-- V0 to VX, in order: what FX55 stores (R146). -/
def State.regsTo (s : State) (x : Reg) : List Byte := s.v.toList.take (x.toNat + 1)

/-- The three decimal digits of a byte, hundreds first, each a number 0 to 9 (R145). -/
def bcdDigits (a : Byte) : List Byte :=
  [BitVec.ofNat 8 (a.toNat / 100 % 10), BitVec.ofNat 8 (a.toNat / 10 % 10), BitVec.ofNat 8 (a.toNat % 10)]

/-- The address FX29 gives: font base plus five times the whole byte (R143). -/
def glyphAddr (b : Byte) : Word := Config.fontBase + Config.glyphBytes * zextByte b

/-- The current key equals a whole register value; no key equals nothing (R161, D16). -/
def keyIs (k : Option Key) (b : Byte) : Bool :=
  match k with
  | none => false
  | some k => zextKey k == b

/-- The sprite bytes DXYN reads: none for N = 0, which reads no memory, else MemRead(I, N) (R152, R53). -/
def State.spriteRows (s : State) (n : Nat) : Option (List Byte) :=
  if n = 0 then some [] else s.load s.base n

end Sys2Proof.Machine
end

