-- ==== Sys2Proof/Machine/Flags.lean ====
section
/-!
DEFINITION. What the flag-writing instructions put in VF (10_state.md R21, 42_load_alu.md R125, R133).
-/

namespace Sys2Proof.Machine

/-- A flag as it stands in VF: 0 or 1 in the whole byte (R21). -/
def flagByte (b : Bool) : Byte := if b then 1#8 else 0#8

/-- Carry of an addition: the exact sum is above 255 (R126, R133). -/
def carry (a b : Byte) : Bool := decide (255 < a.toNat + b.toNat)

/-- No borrow in a − b: a ≥ b, equality included (R127, R133). -/
def noBorrow (a b : Byte) : Bool := decide (b.toNat ≤ a.toNat)

/-- The result to V[X] first, the flag to VF second, so that the flag stays when X = 15 (R125, D10). -/
def State.setResultFlag (s : State) (x : Reg) (result : Byte) (flag : Bool) : State :=
  (s.setReg x result).setReg Reg.vf (flagByte flag)

end Sys2Proof.Machine
end

