-- ==== Sys2Proof/Machine/Control.lean ====
section
/-!
DEFINITION. The control transfer instructions (41_control_flow.md).
-/

namespace Sys2Proof.Machine

/-- 00EE (R100): pop into PC; StackUnderflow when the stack is empty (R183). -/
def execRet (s : State) : Outcome :=
  .next (match s.pop with
    | some (target, t) => t.jump target
    | none => s.raise .stackUnderflow (encode .ret))

/-- 1NNN (R101). -/
def execJpNNN (nnn : BitVec 12) (s : State) : Outcome := .next (s.jump (zextAddr nnn))

/-- 2NNN (R102): push the post-fetch PC and jump; StackOverflow when the stack is at capacity (R183). -/
def execCallNNN (nnn : BitVec 12) (s : State) : Outcome :=
  .next (match s.push s.npc with
    | some t => t.jump (zextAddr nnn)
    | none => s.raise .stackOverflow (encode (.callNNN nnn)))

/-- BNNN (R104): the sum is not reduced to 12 bits (D6). -/
def execJpV0NNN (nnn : BitVec 12) (s : State) : Outcome :=
  .next (s.jump (zextAddr nnn + zextByte (s.reg 0x0#4)))

/-- 3XNN (R105). -/
def execSeVxNN (x : Reg) (nn : Byte) (s : State) : Outcome := .next (s.skipIf (s.reg x == nn))

/-- 4XNN (R106). -/
def execSneVxNN (x : Reg) (nn : Byte) (s : State) : Outcome := .next (s.skipIf (s.reg x != nn))

/-- 5XY0 (R107). -/
def execSeVxVy (x y : Reg) (s : State) : Outcome := .next (s.skipIf (s.reg x == s.reg y))

/-- 9XY0 (R108). -/
def execSneVxVy (x y : Reg) (s : State) : Outcome := .next (s.skipIf (s.reg x != s.reg y))

end Sys2Proof.Machine
end

