-- ==== Sys2Proof/Machine/Display.lean ====
section
/-!
DEFINITION. The display instructions (44_display.md).
-/

namespace Sys2Proof.Machine

/-- 00E0 (R151): every pixel 0, VF not written. -/
def execCls (s : State) : Outcome := .next (s.setPlane Plane.clear).done

/-- The draw of R152 on sprite rows already read: the origin wraps, the pixels clip (D11), VF is written last (D10). -/
def State.drawSprite (s : State) (x y : Reg) (rows : List Byte) : State :=
  let c := Canvas.drawRows ⟨s.fb, false⟩ ((s.reg x).toNat % 64) ((s.reg y).toNat % 32) rows
  (s.setPlane c.fb).setReg Reg.vf (flagByte c.hit)

/-- DXYN (R152): the whole sprite is range-checked before any pixel changes (D12). -/
def execDrwVxVyN (x y : Reg) (n : BitVec 4) (s : State) : Outcome :=
  .next (match s.spriteRows n.toNat with
    | some rows => (s.drawSprite x y rows).done
    | none => s.raise .memoryOutOfRange (encode (.drwVxVyN x y n)))

end Sys2Proof.Machine
end

