-- ==== Sys2Proof/Machine/IndexMemory.lean ====
section
/-!
DEFINITION. The index register and memory instructions (43_index_memory.md). None of FX33, FX55 and FX65 changes I
(R144).
-/

namespace Sys2Proof.Machine

/-- ANNN (R141). -/
def execLdINNN (nnn : BitVec 12) (s : State) : Outcome := .next (s.setIndex (zextAddr nnn)).done

/-- FX1E (R142): modulo 65536, no flag, no fault (D7). -/
def execAddIVx (x : Reg) (s : State) : Outcome :=
  .next (s.setIndex (s.index + zextByte (s.reg x))).done

/-- FX29 (R143): the whole byte is multiplied. -/
def execLdFVx (x : Reg) (s : State) : Outcome := .next (s.setIndex (glyphAddr (s.reg x))).done

/-- FX33 (R145): MemoryOutOfRange when I + 2 > 0xFFF, and then nothing is written. -/
def execLdBVx (x : Reg) (s : State) : Outcome :=
  .next (match s.store s.base (bcdDigits (s.reg x)) with
    | some t => t.done
    | none => s.raise .memoryOutOfRange (encode (.ldBVx x)))

/-- FX55 (R146): MemoryOutOfRange when I + X > 0xFFF, and then nothing is written. -/
def execLdMemVx (x : Reg) (s : State) : Outcome :=
  .next (match s.store s.base (s.regsTo x) with
    | some t => t.done
    | none => s.raise .memoryOutOfRange (encode (.ldMemVx x)))

/-- FX65 (R147): MemoryOutOfRange when I + X > 0xFFF, and then nothing is loaded. -/
def execLdVxMem (x : Reg) (s : State) : Outcome :=
  .next (match s.load s.base (x.toNat + 1) with
    | some bytes => (s.setRegs bytes).done
    | none => s.raise .memoryOutOfRange (encode (.ldVxMem x)))

end Sys2Proof.Machine
end

