-- ==== Sys2Proof/Machine/Keypad.lean ====
section
/-!
DEFINITION. The keypad instructions (45_keypad.md). FX0A's later attempts are `State.keyWaitRetry` in Ops.lean.
-/

namespace Sys2Proof.Machine

/-- EX9E (R161). -/
def execSkpVx (x : Reg) (s : State) : Outcome := .next (s.skipIf (keyIs s.keyCur (s.reg x)))

/-- EXA1 (R162). -/
def execSknpVx (x : Reg) (s : State) : Outcome := .next (s.skipIf (!keyIs s.keyCur (s.reg x)))

/-- FX0A, the first attempt (R163, D15): without a new key the core suspends with PC on the instruction. -/
def execLdVxK (x : Reg) (s : State) : Outcome :=
  .next (match s.keyConsume with
    | (none, t) => t.suspend x
    | (some k, t) => (t.setReg x (zextKey k)).done)

end Sys2Proof.Machine
end

