-- ==== Sys2Proof/Machine/LoadAlu.lean ====
section
/-!
DEFINITION. The register load, arithmetic, logic, shift and random instructions (42_load_alu.md). None can fault.
-/

namespace Sys2Proof.Machine

/-- 6XNN (R120). -/
def execLdVxNN (x : Reg) (nn : Byte) (s : State) : Outcome := .next (s.setReg x nn).done

/-- 7XNN (R121): no flag. -/
def execAddVxNN (x : Reg) (nn : Byte) (s : State) : Outcome := .next (s.setReg x (s.reg x + nn)).done

/-- 8XY0 (R122). -/
def execLdVxVy (x y : Reg) (s : State) : Outcome := .next (s.setReg x (s.reg y)).done

/-- 8XY1 (R123): VF is not touched. -/
def execOrVxVy (x y : Reg) (s : State) : Outcome := .next (s.setReg x (s.reg x ||| s.reg y)).done

/-- 8XY2 (R124): VF is not touched. -/
def execAndVxVy (x y : Reg) (s : State) : Outcome := .next (s.setReg x (s.reg x &&& s.reg y)).done

/-- 8XY3 (R132): VF is not touched. -/
def execXorVxVy (x y : Reg) (s : State) : Outcome := .next (s.setReg x (s.reg x ^^^ s.reg y)).done

/-- 8XY4 (R126): VF is the carry. -/
def execAddVxVy (x y : Reg) (s : State) : Outcome :=
  .next (s.setResultFlag x (s.reg x + s.reg y) (carry (s.reg x) (s.reg y))).done

/-- 8XY5 (R127): VF is 1 when there is no borrow. -/
def execSubVxVy (x y : Reg) (s : State) : Outcome :=
  .next (s.setResultFlag x (s.reg x - s.reg y) (noBorrow (s.reg x) (s.reg y))).done

/-- 8XY6 (R128): V[X] in place, Y ignored; VF is the bit shifted out. -/
def execShrVx (x _y : Reg) (s : State) : Outcome :=
  .next (s.setResultFlag x (s.reg x >>> 1) ((s.reg x).getLsbD 0)).done

/-- 8XY7 (R129): V[Y] − V[X]; VF is 1 when there is no borrow. -/
def execSubnVxVy (x y : Reg) (s : State) : Outcome :=
  .next (s.setResultFlag x (s.reg y - s.reg x) (noBorrow (s.reg y) (s.reg x))).done

/-- 8XYE (R130): V[X] in place, Y ignored; VF is the bit shifted out. -/
def execShlVx (x _y : Reg) (s : State) : Outcome :=
  .next (s.setResultFlag x (s.reg x <<< 1) ((s.reg x).getLsbD 7)).done

/-- CXNN (R131): a free byte, masked (log 5). -/
def execRndVxNN (x : Reg) (nn : Byte) (s : State) : Outcome :=
  .next (match s.rand8 with
    | (r, t) => (t.setReg x (r &&& nn)).done)

end Sys2Proof.Machine
end

