-- ==== Sys2Proof/Machine/Timers.lean ====
section
/-!
DEFINITION. The timer instructions (46_timers.md). The Tick is `State.tick` in Ops.lean.
-/

namespace Sys2Proof.Machine

/-- FX07 (R171). -/
def execLdVxDT (x : Reg) (s : State) : Outcome := .next (s.setReg x s.dt).done

/-- FX15 (R172). -/
def execLdDTVx (x : Reg) (s : State) : Outcome := .next (s.setDt (s.reg x)).done

/-- FX18 (R173). -/
def execLdSTVx (x : Reg) (s : State) : Outcome := .next (s.setSt (s.reg x)).done

end Sys2Proof.Machine
end

