-- ==== Sys2Proof/Machine/Step.lean ====
section
/-!
DEFINITION. The Step cycle (40_fetch_dispatch.md R90) and the step of the machine with its environment
(00_scope.md R6).
-/

namespace Sys2Proof.Machine

/-- The spec's Step() (R90): by HALT and WAIT nothing, a retry of the suspended FX0A, or one instruction. -/
def coreStep (s : State) : Host.Outcome State Fault Refusal :=
  if s.halt then .next s.haltedStep
  else if s.wait then .next s.keyWaitRetry
  else
    match s.fetch with
    | none => .next s.fetchFault
    | some op =>
      match decode op with
      | .ok i => exec i s
      | .error _ => .next (s.unrecognised op)

/-- One step of the machine: the Ticks and Input updates that come before the Step, then the Step (R6; log 3). -/
def step (s : State) : Host.Outcome State Fault Refusal := coreStep s.deliver

/-- The state with a table row's word stored where the next Step fetches, and the core running so that it fetches
(log 12). -/
def State.withFetchWord (s : State) (nbits w : Nat) : State :=
  { s with
    mem := if inRange s.pc.toNat 2 then s.mem.writeBytes s.pc.toNat (bytesOfWord (tableWord nbits w)) else s.mem
    halt := false
    wait := false }

end Sys2Proof.Machine
end

