-- ==== Sys2Proof/Safety.lean ====
section
/-!
DEFINITION. The terms claims are made in: what an instruction leaves unchanged, what a fault leaves, the write matrix
of 10_state.md R36, the sprite of a draw, the conditions of a fault, and the invariant of the machine.
-/

namespace Sys2Proof.Machine

/-! ### Frames -/

/-- The parts of the state a frame speaks of. PC and the output event are left out: every statement says them. -/
inductive Part where
  | regs | index | stack | dt | st | mem | plane | keyCur | keyNew | wait | halt | clock | rndCount
  deriving DecidableEq, Repr

/-- A part reads the same in both states. `stack` is SP with all entries, `wait` is WAIT with WAITX, `halt` is HALT
with the fault record, `mem` is every byte read, `clock` and `rndCount` are the model's own. -/
def Part.same : Part → State → State → Prop
  | .regs, s, t => ∀ r, t.reg r = s.reg r
  | .index, s, t => t.index = s.index
  | .stack, s, t => t.sp = s.sp ∧ t.stack = s.stack
  | .dt, s, t => t.dt = s.dt
  | .st, s, t => t.st = s.st
  | .mem, s, t => ∀ a, t.mem.read a = s.mem.read a
  | .plane, s, t => t.fb = s.fb
  | .keyCur, s, t => t.keyCur = s.keyCur
  | .keyNew, s, t => t.keyNew = s.keyNew
  | .wait, s, t => t.wait = s.wait ∧ t.waitX = s.waitX
  | .halt, s, t => t.halt = s.halt ∧ t.faultCause = s.faultCause ∧ t.faultPc = s.faultPc ∧ t.faultOp = s.faultOp
  | .clock, s, t => t.clock = s.clock
  | .rndCount, s, t => t.rndCount = s.rndCount

/-- From s to t every part is unchanged but those listed. -/
def KeepsAllBut (parts : List Part) (s t : State) : Prop := ∀ p, p ∉ parts → p.same s t

/-- From s to t every general register is unchanged but those listed. -/
def KeepsRegsBut (xs : List Reg) (s t : State) : Prop := ∀ r, r ∉ xs → t.reg r = s.reg r

/-- From s to t every byte of memory is unchanged but the n bytes from address lo. -/
def KeepsMemOutside (lo n : Nat) (s t : State) : Prop :=
  ∀ a, ¬ (lo ≤ a ∧ a < lo + n) → t.mem.read a = s.mem.read a

/-- The Step that ended in t left PC at `pc` and returned no event. -/
def EndsAt (t : State) (pc : Word) : Prop := t.pc = pc ∧ t.event = .none

/-- From s the Step faulted into t (60_exceptions.md R185): the record, HALT, PC still at the instruction, everything
else unchanged. The event has the op of the record, which for a fetch fault is the model's choice (log 16). -/
def HaltedBy (c : Cause) (op : Word) (s t : State) : Prop :=
  t.halt = true ∧ t.faultCause = c ∧ t.faultPc = s.pc ∧ t.faultOp = op ∧ t.pc = s.pc ∧
    t.event = .fault c op s.pc ∧ KeepsAllBut [.halt] s t

/-- The core is neither halted nor awaiting a key (R192). -/
def State.running (s : State) : Prop := s.halt = false ∧ s.wait = false

/-- STACK[k]; 0 outside the 16 entries. -/
def State.entry (s : State) (k : Nat) : Word := (s.stack[k]?).getD 0#16

/-! ### The write matrix (10_state.md R36) -/

/-- The parts the row of an instruction in R36 lists as written; RND counts its sample in the model's own counter. -/
def writes : Instr → List Part
  | .cls => [.plane]
  | .ret | .callNNN _ => [.stack]
  | .jpNNN _ | .jpV0NNN _ | .seVxNN _ _ | .sneVxNN _ _ | .seVxVy _ _ | .sneVxVy _ _ | .skpVx _ | .sknpVx _ => []
  | .ldVxNN _ _ | .addVxNN _ _ | .ldVxVy _ _ | .orVxVy _ _ | .andVxVy _ _ | .xorVxVy _ _ | .addVxVy _ _
  | .subVxVy _ _ | .shrVx _ _ | .subnVxVy _ _ | .shlVx _ _ | .ldVxDT _ | .ldVxMem _ => [.regs]
  | .rndVxNN _ _ => [.regs, .rndCount]
  | .drwVxVyN _ _ _ => [.plane, .regs]
  | .ldVxK _ => [.regs, .wait, .keyNew]
  | .ldDTVx _ => [.dt]
  | .ldSTVx _ => [.st]
  | .ldINNN _ | .addIVx _ | .ldFVx _ => [.index]
  | .ldBVx _ | .ldMemVx _ => [.mem]

/-- The general registers the row of an instruction in R36 lists as written. -/
def regWrites : Instr → Reg → Prop
  | .ldVxNN x _, r | .addVxNN x _, r | .ldVxVy x _, r | .orVxVy x _, r | .andVxVy x _, r | .xorVxVy x _, r
  | .rndVxNN x _, r | .ldVxDT x, r | .ldVxK x, r => r = x
  | .addVxVy x _, r | .subVxVy x _, r | .shrVx x _, r | .subnVxVy x _, r | .shlVx x _, r => r = x ∨ r = Reg.vf
  | .drwVxVyN _ _ _, r => r = Reg.vf
  | .ldVxMem x, r => r.toNat ≤ x.toNat
  | _, _ => False

/-- How many bytes from I on the row of an instruction in R36 lists as written; the address is the meanings' own,
`State.base`. -/
def storedBytes : Instr → Nat
  | .ldBVx _ => 3
  | .ldMemVx x => x.toNat + 1
  | _ => 0

/-- The stack entries the row of an instruction in R36 lists as written: STACK[SP] for 2NNN, none else (00EE writes SP
alone). -/
def entryWrites (s : State) : Instr → Nat → Prop
  | .callNNN _, k => k = s.sp.val
  | _, _ => False

/-! ### Drawing (44_display.md R152) -/

/-- The sprite of DXYN has a set bit that falls on pixel (px, py): the origin is (V[X] mod 64, V[Y] mod 32), row r is
the byte at I + r, bit 7 is the leftmost. -/
def spriteBit (s : State) (x y : Reg) (n : BitVec 4) (px py : Nat) : Bool :=
  let ox := (s.reg x).toNat % 64
  let oy := (s.reg y).toNat % 32
  decide (ox ≤ px ∧ px < ox + 8 ∧ oy ≤ py ∧ py < oy + n.toNat) &&
    (s.mem.read (s.index.toNat + (py - oy))).getLsbD (7 - (px - ox))

/-- Some set bit of the sprite falls on the plane. -/
def SpriteShows (s : State) (x y : Reg) (n : BitVec 4) : Prop :=
  ∃ px py, px < 64 ∧ py < 32 ∧ spriteBit s x y n px py = true

/-- Some set bit of the sprite falls on a pixel that is on. -/
def Collides (s : State) (x y : Reg) (n : BitVec 4) : Prop :=
  ∃ px py, px < 64 ∧ py < 32 ∧ spriteBit s x y n px py = true ∧ s.fb.get px py = true

/-! ### When a Step faults (60_exceptions.md R182, R183) -/

/-- The fault of an instruction, by the tables of R182 and R183. -/
def instrFault (s : State) : Instr → Option Cause
  | .ret => if s.sp.val = 0 then some .stackUnderflow else none
  | .callNNN _ => if s.sp.val = 16 then some .stackOverflow else none
  | .drwVxVyN _ _ n => if 1 ≤ n.toNat ∧ s.index.toNat + n.toNat - 1 > 0xFFF then some .memoryOutOfRange else none
  | .ldBVx _ => if s.index.toNat + 2 > 0xFFF then some .memoryOutOfRange else none
  | .ldMemVx x | .ldVxMem x => if s.index.toNat + x.toNat > 0xFFF then some .memoryOutOfRange else none
  | _ => none

/-- The fault of the next Step of a running core: the fetch first, then the instruction (R187). -/
def stepFault (s : State) : Option Cause :=
  if s.pc.toNat > 0xFFE then some .memoryOutOfRange
  else
    match s.fetch with
    | none => none
    | some op =>
      match decode op with
      | .ok i => instrFault s i
      | .error _ => none

/-! ### The invariant -/

/-- What every step keeps. -/
structure Inv (s : State) : Prop where
  /-- Memory keeps its canonical form. -/
  memory : s.mem.wf
  /-- The largest value any rule puts in PC is 0x10FE (R23). -/
  pcBound : s.pc.toNat ≤ 0x10FE
  /-- Every live stack entry is a value some CALL pushed, at most 0x1000 (R100). -/
  stackBound : ∀ k, k < s.sp.val → (s.entry k).toNat ≤ 0x1000
  /-- HALT and WAIT never hold together (R98). -/
  oneRunState : ¬ (s.halt = true ∧ s.wait = true)
  /-- Without a fault the record is what reset left (R181). -/
  noRecord : s.halt = false → s.faultCause = .none ∧ s.faultPc = 0#16 ∧ s.faultOp = 0#16
  /-- After a fault the record names a cause, the PC, and the word at PC, or 0x0000 where none can be fetched (R31,
  R185). -/
  record : s.halt = true → s.faultCause ≠ .none ∧ s.faultPc = s.pc ∧ s.faultOp = s.fetch.getD 0#16
  /-- While awaiting a key, PC is at the suspended FX0A and WAITX is its X (R29). -/
  suspended : s.wait = true → s.fetch = some (0xF#4 ++ s.waitX ++ 0x0A#8)

end Sys2Proof.Machine
end

