-- ==== Sys2Proof/Certificates/Slice0/Obligations.lean ====
section
/-!
DEFINITION. The statements for the provers, from the numbered rules of spec/. `0x6#4 ++ x ++ nn` and the like are the
words of 30_encoding.md R72, high bits first. A clause that rests on one of the spec's own decisions, or on a choice of
the model, says so in the docstring.
-/

open Sys2Proof Sys2Proof.Machine

/-! ### Encoding (30_encoding.md) -/

/-- R74, R75: the words of 95_test_vectors.md section 2.1 select what the table there says; the exact patterns of
`01E0`, `5AB1`, `9ABF` are decision D13, the Y in the shift's constructor is the model's (log 11). -/
def Obligations.DecodesTheSpecsWords : Prop :=
  decode 0xD12A#16 = .ok (.drwVxVyN 0x1 0x2 0xA) ∧
  decode 0x00E0#16 = .ok .cls ∧
  decode 0x00EE#16 = .ok .ret ∧
  decode 0x0000#16 = .error (.unrecognised 0x0000) ∧
  decode 0x01E0#16 = .error (.unrecognised 0x01E0) ∧
  decode 0x5AB0#16 = .ok (.seVxVy 0xA 0xB) ∧
  decode 0x5AB1#16 = .error (.unrecognised 0x5AB1) ∧
  decode 0x9AB0#16 = .ok (.sneVxVy 0xA 0xB) ∧
  decode 0x9ABF#16 = .error (.unrecognised 0x9ABF) ∧
  decode 0x8AB8#16 = .error (.unrecognised 0x8AB8) ∧
  decode 0x8ABE#16 = .ok (.shlVx 0xA 0xB) ∧
  decode 0xE19E#16 = .ok (.skpVx 0x1) ∧
  decode 0xE19F#16 = .error (.unrecognised 0xE19F) ∧
  decode 0xF165#16 = .ok (.ldVxMem 0x1) ∧
  decode 0xF175#16 = .error (.unrecognised 0xF175) ∧
  decode 0xFFFF#16 = .error (.unrecognised 0xFFFF) ∧
  decode 0x1FFF#16 = .ok (.jpNNN 0xFFF) ∧
  decodeBytes [0xD1#8, 0x2A#8] = .ok (.drwVxVyN 0x1 0x2 0xA, [])

/-- R71: the six fields are the named bits of the word, NN = Y·16 + N, NNN = X·256 + NN, and each in terms of the two
bytes of the word, high byte first. -/
def Obligations.FieldsAreTheNamedBits : Prop :=
  ∀ b0 b1 : Byte,
    let op := wordOfBytes b0 b1
    let f := Fields.ofWord op
    (f.type.toNat = op.toNat / 4096 ∧ f.x.toNat = op.toNat / 256 % 16 ∧ f.y.toNat = op.toNat / 16 % 16 ∧
      f.n.toNat = op.toNat % 16 ∧ f.nn.toNat = op.toNat % 256 ∧ f.nnn.toNat = op.toNat % 4096) ∧
    (f.nn.toNat = f.y.toNat * 16 + f.n.toNat ∧ f.nnn.toNat = f.x.toNat * 256 + f.nn.toNat) ∧
    (f.type.toNat = b0.toNat / 16 ∧ f.x.toNat = b0.toNat % 16 ∧ f.y.toNat = b1.toNat / 16 ∧
      f.n.toNat = b1.toNat % 16 ∧ f.nn = b1 ∧ f.nnn.toNat = b0.toNat % 16 * 256 + b1.toNat)

/-- R70, R72, R75: for every instruction with every operand, decoding its word gives it back, and so does decoding its
two bytes in front of any others (that the shifts keep the Y they ignore is the model's: log 11). -/
def Obligations.DecodeOfEncode : Prop :=
  ∀ i : Instr, decode (encode i) = .ok i ∧ ∀ rest, decodeBytes (encodeBytes i ++ rest) = .ok (i, rest)

/-- R75, R77: a word that decodes is the word of the instruction it decodes to: no bit of it is dropped. It rests on log 11
(the shifts' constructors keep the Y that they ignore, DEDUCED) and on decision D13 (exact patterns: a lenient decoder
would drop bits of 01E0 or 5AB1). -/
def Obligations.EncodeOfDecode : Prop := ∀ (op : Word) (i : Instr), decode op = .ok i → encode i = op

/-- R76: the unrecognised words are exactly those of the table of R76 (type 0 and the exact patterns of types 5 and 9
by decision D13). -/
def Obligations.UnrecognisedWordsAreTheTables : Prop :=
  ∀ op : Word,
    let f := Fields.ofWord op
    decode op = .error (.unrecognised op) ↔
      (f.type = 0x0 ∧ f.nnn ≠ 0x0E0 ∧ f.nnn ≠ 0x0EE) ∨
      (f.type = 0x5 ∧ f.n ≠ 0) ∨
      (f.type = 0x8 ∧ f.n ∈ [0x8#4, 0x9#4, 0xA#4, 0xB#4, 0xC#4, 0xD#4, 0xF#4]) ∨
      (f.type = 0x9 ∧ f.n ≠ 0) ∨
      (f.type = 0xE ∧ f.nn ∉ [0x9E#8, 0xA1#8]) ∨
      (f.type = 0xF ∧ f.nn ∉ [0x07#8, 0x0A#8, 0x15#8, 0x18#8, 0x1E#8, 0x29#8, 0x33#8, 0x55#8, 0x65#8])

/-- R74: whichever row of the opcode map a word selects, the decoder answers that row's instruction; a word that
selects none is unrecognised. -/
def Obligations.DecodeFollowsTheSelectedRow : Prop :=
  ∀ op : Word,
    (∀ r ∈ opcodeRows, op &&& r.mask = r.pat → decode op = .ok (r.build (Fields.ofWord op))) ∧
    ((∀ r ∈ opcodeRows, op &&& r.mask ≠ r.pat) → decode op = .error (.unrecognised op))

/-! ### The Step cycle (40_fetch_dispatch.md) -/

/-- R90, R93: when the word at PC decodes to i, a step of a running core is i's rule on the state the events before
the Step leave (the delivery of events inside `step` is the model's choice, log 3). -/
def Obligations.StepRunsTheDecodedInstruction : Prop :=
  ∀ (s : State) (op : Word) (i : Instr), s.running → s.fetch = some op → decode op = .ok i →
    step s = exec i s.deliver

/-- R6, R174, R160: what `step` does before the Step is the arrived Ticks and Input updates, one after another in
order, and the advance of the model's own clock (log 3, log 6). -/
def Obligations.EventsArriveOneAfterAnother : Prop :=
  ∀ s : State, s.deliver =
    { (Config.arrivals s.clock).foldl State.applyEvent s with clock := s.clock + 1 }

/-- R91, R54: the fetch is MEM[PC]·256 + MEM[PC + 1] when PC ≤ 0xFFE, and there is none above (no wrap: D6). -/
def Obligations.FetchIsTwoBytesHighFirst : Prop :=
  ∀ s : State,
    (s.pc.toNat ≤ 0xFFE → ∃ op, s.fetch = some op ∧
      op.toNat = (s.mem.read s.pc.toNat).toNat * 256 + (s.mem.read (s.pc.toNat + 1)).toNat) ∧
    (0xFFE < s.pc.toNat → s.fetch = none)

/-- R91, R185: a running core whose PC is above 0xFFE halts with cause MemoryOutOfRange and FAULT_OP 0x0000 (D6, D8,
D9); that the event's op is 0x0000 too is the model's choice (log 16). -/
def Obligations.FetchFaultHalts : Prop :=
  ∀ s : State, s.running → 0xFFE < s.pc.toNat →
    ∃ t, step s = .next t ∧ HaltedBy .memoryOutOfRange 0x0000#16 s.deliver t

/-- R97: an unrecognised word changes nothing but PC, which goes to npc, and the Step reports the word and its address;
0x0000 is such a word, and a word that cannot be fetched is never reported so. -/
def Obligations.UnrecognisedWordIsANoOp : Prop :=
  (∀ (s : State) (op : Word), s.running → s.fetch = some op → decode op = .error (.unrecognised op) →
    ∃ t, coreStep s = .next t ∧ t.pc = s.pc + 2#16 ∧ t.event = .unrecognised op s.pc ∧ KeepsAllBut [] s t) ∧
  decode 0x0000#16 = .error (.unrecognised 0x0000#16) ∧
  (∀ s t : State, s.running → s.fetch = none → coreStep s = .next t → ∀ op a, t.event ≠ .unrecognised op a)

/-- R98: the Step of a halted core changes nothing and returns no event (D23); what comes before it are the events of
the outside world (D17). -/
def Obligations.HaltedStepChangesNothing : Prop :=
  ∀ s : State, s.halt = true →
    ∃ t, step s = .next t ∧ t.event = .none ∧ t.pc = s.pc ∧ KeepsAllBut [] s.deliver t

/-- R30: HALT is set by a fault and by nothing else, every fault sets it, it is never cleared by a step or a Tick, and it
is clear after reset (the reset value 0 is decision D3, log 9). -/
def Obligations.HaltIsSetByAFaultAndKept : Prop :=
  (∀ s t : State, s.halt = true → step s = .next t → t.halt = true) ∧
  (∀ s : State, s.tick.halt = s.halt) ∧
  (∀ s t : State, s.halt = false → step s = .next t → t.halt = true →
    ∃ c op, c ≠ Cause.none ∧ t.event = .fault c op s.pc) ∧
  (∀ (s t : State) (c : Cause) (op addr : Word), step s = .next t → t.event = .fault c op addr → t.halt = true) ∧
  State.reset.halt = false

/-- R164: every Step of a core awaiting a key consumes KEY_NEW; without a key nothing changes and the event is waiting;
with a key k, V[WAITX] is k, WAIT is 0 and PC advances by 2. -/
def Obligations.WaitingStepRetries : Prop :=
  ∀ s : State, s.halt = false → s.wait = true →
    (s.keyNew = none → ∃ t, coreStep s = .next t ∧ t.event = .waiting ∧ t.pc = s.pc ∧ KeepsAllBut [] s t) ∧
    (∀ k, s.keyNew = some k → ∃ t, coreStep s = .next t ∧ t.reg s.waitX = k.setWidth 8 ∧ t.wait = false ∧
      t.keyNew = none ∧ EndsAt t (s.pc + 2#16) ∧ KeepsRegsBut [s.waitX] s t ∧
      KeepsAllBut [.regs, .wait, .keyNew] s t)

/-- R174: a Tick counts each timer that is not 0 down by one, leaves a timer at 0 there, and changes nothing else, in
every run state (D17). -/
def Obligations.TickCountsBothTimersDown : Prop :=
  ∀ s : State, s.tick.dt.toNat = s.dt.toNat - 1 ∧ s.tick.st.toNat = s.st.toNat - 1 ∧
    s.tick.pc = s.pc ∧ s.tick.event = s.event ∧ KeepsAllBut [.dt, .st] s s.tick

/-- R175: over a step DT does not rise unless the Step runs FX15, ST does not rise unless it runs FX18. -/
def Obligations.TimersOnlyFallWithoutAWrite : Prop :=
  ∀ (s t : State), step s = .next t →
    (t.dt.toNat ≤ s.dt.toNat ∨ ∃ op x, s.fetch = some op ∧ decode op = .ok (.ldDTVx x)) ∧
    (t.st.toNat ≤ s.st.toNat ∨ ∃ op x, s.fetch = some op ∧ decode op = .ok (.ldSTVx x))

/-- R184, R185, R192: in every state a step answers a next state: there is no illegal instruction and no privilege, and
a fault is a state (log 1). -/
def Obligations.EveryStepAnswers : Prop :=
  (∀ s : State, ∃ t, step s = .next t) ∧ ∀ (i : Instr) (s : State), ∃ t, exec i s = .next t

/-! ### Control transfer (41_control_flow.md) -/

/-- R100: 00EE with SP > 0 takes one off SP and puts that entry in PC, erasing nothing; with SP = 0 it raises
StackUnderflow: nothing changes and the core halts with PC at the instruction. -/
def Obligations.ReturnPopsTheStack : Prop :=
  decode 0x00EE#16 = .ok .ret ∧
  ∀ s : State,
    (0 < s.sp.val → ∃ t, exec .ret s = .next t ∧ t.sp.val = s.sp.val - 1 ∧ EndsAt t (s.entry (s.sp.val - 1)) ∧
      t.stack = s.stack ∧ KeepsAllBut [.stack] s t) ∧
    (s.sp.val = 0 → ∃ t, exec .ret s = .next t ∧ t.halt = true ∧ t.faultCause = .stackUnderflow ∧ t.pc = s.pc ∧
      KeepsAllBut [.halt] s t)

/-- R102: 2NNN with SP < 16 stores npc at STACK[SP], adds one to SP and jumps; with SP = 16 it faults with
StackOverflow (the depth 16 is D1, the record D8 and D9). -/
def Obligations.CallPushesAndJumps : Prop :=
  ∀ (nnn : BitVec 12) (s : State),
    (s.sp.val < 16 → ∃ t, exec (.callNNN nnn) s = .next t ∧ t.sp.val = s.sp.val + 1 ∧
      t.entry s.sp.val = s.pc + 2#16 ∧ (∀ k, k ≠ s.sp.val → t.entry k = s.entry k) ∧
      EndsAt t (nnn.setWidth 16) ∧ KeepsAllBut [.stack] s t) ∧
    (s.sp.val = 16 → ∃ t, exec (.callNNN nnn) s = .next t ∧ HaltedBy .stackOverflow (0x2#4 ++ nnn) s t)

/-- R103: after a completed 2NNN at address a, a 00EE that runs with the SP and the entry that call left puts a + 2 in
PC; and no instruction but these two changes SP or an entry. -/
def Obligations.CallThenReturnComesBack : Prop :=
  (∀ (nnn : BitVec 12) (s t u : State), s.sp.val < 16 → exec (.callNNN nnn) s = .next t →
    u.sp = t.sp → u.entry s.sp.val = t.entry s.sp.val →
    ∃ w, exec .ret u = .next w ∧ w.pc = s.pc + 2#16 ∧ w.sp = s.sp) ∧
  (∀ (i : Instr) (s t : State), exec i s = .next t → i ≠ .ret → (∀ nnn, i ≠ .callNNN nnn) →
    t.sp = s.sp ∧ t.stack = s.stack)

/-- R101: 1NNN puts NNN in PC, whatever NNN is, and changes nothing else. -/
def Obligations.JumpSetsPc : Prop :=
  ∀ (nnn : BitVec 12) (s : State), decode (0x1#4 ++ nnn) = .ok (.jpNNN nnn) ∧
    ∃ t, exec (.jpNNN nnn) s = .next t ∧ t.pc.toNat = nnn.toNat ∧ t.event = .none ∧ KeepsAllBut [] s t

/-- R104: BNNN puts V0 + NNN in PC, always V0, not reduced to 12 bits (D6), and changes nothing else. -/
def Obligations.JumpWithOffsetAddsV0 : Prop :=
  ∀ (nnn : BitVec 12) (s : State),
    ∃ t, exec (.jpV0NNN nnn) s = .next t ∧ t.pc.toNat = (s.reg 0x0#4).toNat + nnn.toNat ∧ t.event = .none ∧
      KeepsAllBut [] s t

/-- R105, R106: 3XNN skips exactly when V[X] = NN, 4XNN exactly when it is not; PC is npc + 2 or npc and nothing else
changes. -/
def Obligations.SkipsOnImmediate : Prop :=
  ∀ (x : Reg) (nn : Byte) (s : State),
    decode (0x3#4 ++ x ++ nn) = .ok (.seVxNN x nn) ∧ decode (0x4#4 ++ x ++ nn) = .ok (.sneVxNN x nn) ∧
    (∃ t, exec (.seVxNN x nn) s = .next t ∧ EndsAt t (if s.reg x = nn then s.pc + 4#16 else s.pc + 2#16) ∧
      KeepsAllBut [] s t) ∧
    (∃ t, exec (.sneVxNN x nn) s = .next t ∧ EndsAt t (if s.reg x ≠ nn then s.pc + 4#16 else s.pc + 2#16) ∧
      KeepsAllBut [] s t)

/-- R107, R108: 5XY0 skips exactly when V[X] = V[Y], 9XY0 exactly when they differ; PC is npc + 2 or npc and nothing
else changes; with N ≠ 0 the word is unrecognised. -/
def Obligations.SkipsOnRegisters : Prop :=
  ∀ (x y : Reg) (s : State),
    decode (0x5#4 ++ x ++ y ++ 0x0#4) = .ok (.seVxVy x y) ∧ decode (0x9#4 ++ x ++ y ++ 0x0#4) = .ok (.sneVxVy x y) ∧
    (∀ n : BitVec 4, n ≠ 0 → (∀ i, decode (0x5#4 ++ x ++ y ++ n) ≠ .ok i) ∧ ∀ i, decode (0x9#4 ++ x ++ y ++ n) ≠ .ok i) ∧
    (∃ t, exec (.seVxVy x y) s = .next t ∧ EndsAt t (if s.reg x = s.reg y then s.pc + 4#16 else s.pc + 2#16) ∧
      KeepsAllBut [] s t) ∧
    (∃ t, exec (.sneVxVy x y) s = .next t ∧ EndsAt t (if s.reg x ≠ s.reg y then s.pc + 4#16 else s.pc + 2#16) ∧
      KeepsAllBut [] s t)

/-! ### Loads, arithmetic, logic, shifts, random (42_load_alu.md) -/

/-- R120: 6XNN puts NN in V[X] and changes nothing else; VF changes only as the destination. -/
def Obligations.LoadImmediateSetsVx : Prop :=
  ∀ (x : Reg) (nn : Byte) (s : State), decode (0x6#4 ++ x ++ nn) = .ok (.ldVxNN x nn) ∧
    ∃ t, exec (.ldVxNN x nn) s = .next t ∧ t.reg x = nn ∧ EndsAt t (s.pc + 2#16) ∧ KeepsRegsBut [x] s t ∧
      KeepsAllBut [.regs] s t

/-- R121: 7XNN puts (V[X] + NN) mod 256 in V[X]; the carry is dropped and VF changes only as the destination. -/
def Obligations.AddImmediateWraps : Prop :=
  ∀ (x : Reg) (nn : Byte) (s : State), decode (0x7#4 ++ x ++ nn) = .ok (.addVxNN x nn) ∧
    ∃ t, exec (.addVxNN x nn) s = .next t ∧ (t.reg x).toNat = ((s.reg x).toNat + nn.toNat) % 256 ∧
      EndsAt t (s.pc + 2#16) ∧ KeepsRegsBut [x] s t ∧ KeepsAllBut [.regs] s t

/-- R122: 8XY0 copies V[Y] to V[X] and changes nothing else. -/
def Obligations.CopyRegisterSetsVx : Prop :=
  ∀ (x y : Reg) (s : State), decode (0x8#4 ++ x ++ y ++ 0x0#4) = .ok (.ldVxVy x y) ∧
    ∃ t, exec (.ldVxVy x y) s = .next t ∧ t.reg x = s.reg y ∧ EndsAt t (s.pc + 2#16) ∧ KeepsRegsBut [x] s t ∧
      KeepsAllBut [.regs] s t

/-- R123, R124, R132: 8XY1, 8XY2 and 8XY3 put the bitwise or, and, exclusive or of V[X] and V[Y] in V[X]; no flag: VF
changes only as the destination. -/
def Obligations.LogicIsBitwiseWithoutFlag : Prop :=
  ∀ (x y : Reg) (s : State),
    decode (0x8#4 ++ x ++ y ++ 0x1#4) = .ok (.orVxVy x y) ∧ decode (0x8#4 ++ x ++ y ++ 0x2#4) = .ok (.andVxVy x y) ∧
    decode (0x8#4 ++ x ++ y ++ 0x3#4) = .ok (.xorVxVy x y) ∧
    (∃ t, exec (.orVxVy x y) s = .next t ∧
      (∀ b, (t.reg x).getLsbD b = ((s.reg x).getLsbD b || (s.reg y).getLsbD b)) ∧
      EndsAt t (s.pc + 2#16) ∧ KeepsRegsBut [x] s t ∧ KeepsAllBut [.regs] s t) ∧
    (∃ t, exec (.andVxVy x y) s = .next t ∧
      (∀ b, (t.reg x).getLsbD b = ((s.reg x).getLsbD b && (s.reg y).getLsbD b)) ∧
      EndsAt t (s.pc + 2#16) ∧ KeepsRegsBut [x] s t ∧ KeepsAllBut [.regs] s t) ∧
    (∃ t, exec (.xorVxVy x y) s = .next t ∧
      (∀ b, (t.reg x).getLsbD b = ((s.reg x).getLsbD b ^^ (s.reg y).getLsbD b)) ∧
      EndsAt t (s.pc + 2#16) ∧ KeepsRegsBut [x] s t ∧ KeepsAllBut [.regs] s t)

/-- R126: 8XY4 leaves the carry in VF, and the sum mod 256 in V[X] when X ≠ 15 (with X = 15 the flag stays: D10). -/
def Obligations.AddLeavesCarry : Prop :=
  ∀ (x y : Reg) (s : State), ∃ t, exec (.addVxVy x y) s = .next t ∧
    t.reg Reg.vf = (if (s.reg x).toNat + (s.reg y).toNat > 255 then 1#8 else 0#8) ∧
    (x ≠ Reg.vf → (t.reg x).toNat = ((s.reg x).toNat + (s.reg y).toNat) % 256) ∧
    EndsAt t (s.pc + 2#16) ∧ KeepsRegsBut [x, Reg.vf] s t ∧ KeepsAllBut [.regs] s t

/-- R127, R129: 8XY5 leaves V[X] − V[Y], 8XY7 V[Y] − V[X], mod 256, in V[X] when X ≠ 15, and in VF 1 exactly when there
is no borrow (with X = 15 the flag stays: D10). -/
def Obligations.SubtractLeavesNoBorrow : Prop :=
  ∀ (x y : Reg) (s : State),
    (∃ t, exec (.subVxVy x y) s = .next t ∧
      t.reg Reg.vf = (if (s.reg x).toNat ≥ (s.reg y).toNat then 1#8 else 0#8) ∧
      (x ≠ Reg.vf → (t.reg x).toNat = ((s.reg x).toNat + 256 - (s.reg y).toNat) % 256) ∧
      EndsAt t (s.pc + 2#16) ∧ KeepsRegsBut [x, Reg.vf] s t ∧ KeepsAllBut [.regs] s t) ∧
    (∃ t, exec (.subnVxVy x y) s = .next t ∧
      t.reg Reg.vf = (if (s.reg y).toNat ≥ (s.reg x).toNat then 1#8 else 0#8) ∧
      (x ≠ Reg.vf → (t.reg x).toNat = ((s.reg y).toNat + 256 - (s.reg x).toNat) % 256) ∧
      EndsAt t (s.pc + 2#16) ∧ KeepsRegsBut [x, Reg.vf] s t ∧ KeepsAllBut [.regs] s t)

/-- R128, R130: 8XY6 and 8XYE shift V[X] by one bit in place, whatever Y is, and leave in VF the bit shifted out (with
X = 15 the flag stays: D10). -/
def Obligations.ShiftLeavesTheBitShiftedOut : Prop :=
  ∀ (x y : Reg) (s : State),
    (∃ t, exec (.shrVx x y) s = .next t ∧ (t.reg Reg.vf).toNat = (s.reg x).toNat % 2 ∧
      (x ≠ Reg.vf → (t.reg x).toNat = (s.reg x).toNat / 2) ∧
      EndsAt t (s.pc + 2#16) ∧ KeepsRegsBut [x, Reg.vf] s t ∧ KeepsAllBut [.regs] s t) ∧
    (∃ t, exec (.shlVx x y) s = .next t ∧ (t.reg Reg.vf).toNat = (s.reg x).toNat / 128 ∧
      (x ≠ Reg.vf → (t.reg x).toNat = (s.reg x).toNat * 2 % 256) ∧
      EndsAt t (s.pc + 2#16) ∧ KeepsRegsBut [x, Reg.vf] s t ∧ KeepsAllBut [.regs] s t)

/-- R131: CXNN samples RND once and puts it, masked by NN, in V[X]; no bit that NN has clear is set. The byte is a free
value (D18, log 5): the statement holds for every one. -/
def Obligations.RandomIsMasked : Prop :=
  ∀ (x : Reg) (nn : Byte) (s : State), ∃ t, exec (.rndVxNN x nn) s = .next t ∧
    t.reg x = (Config.rnd s.rndCount &&& nn) ∧ (∀ b, nn.getLsbD b = false → (t.reg x).getLsbD b = false) ∧
    t.rndCount = s.rndCount + 1 ∧ EndsAt t (s.pc + 2#16) ∧ KeepsRegsBut [x] s t ∧
    KeepsAllBut [.regs, .rndCount] s t

/-! ### Index and memory (43_index_memory.md) -/

/-- R141: ANNN puts NNN in I, the upper four bits zero, and changes nothing else. -/
def Obligations.LoadIndexSetsI : Prop :=
  ∀ (nnn : BitVec 12) (s : State), decode (0xA#4 ++ nnn) = .ok (.ldINNN nnn) ∧
    ∃ t, exec (.ldINNN nnn) s = .next t ∧ t.index.toNat = nnn.toNat ∧ EndsAt t (s.pc + 2#16) ∧
      KeepsAllBut [.index] s t

/-- R142: FX1E adds V[X] to I modulo 65536, with no flag and no fault (D7). -/
def Obligations.AddToIndexWraps : Prop :=
  ∀ (x : Reg) (s : State), ∃ t, exec (.addIVx x) s = .next t ∧
    t.index.toNat = (s.index.toNat + (s.reg x).toNat) % 65536 ∧ EndsAt t (s.pc + 2#16) ∧ KeepsAllBut [.index] s t

/-- R143: FX29 puts 0x50 + 5·V[X] in I, the whole byte multiplied, and changes nothing else. -/
def Obligations.GlyphAddressIsFontBasePlusFiveVx : Prop :=
  ∀ (x : Reg) (s : State), decode (0xF#4 ++ x ++ 0x29#8) = .ok (.ldFVx x) ∧
    ∃ t, exec (.ldFVx x) s = .next t ∧ t.index.toNat = 0x50 + 5 * (s.reg x).toNat ∧ EndsAt t (s.pc + 2#16) ∧
      KeepsAllBut [.index] s t

/-- R145: FX33 in range stores the three decimal digits of V[X] at I, I + 1, I + 2 and changes no other byte (the
range: D6). -/
def Obligations.DecimalDigitsAreStored : Prop :=
  ∀ (x : Reg) (s : State), s.index.toNat + 2 ≤ 0xFFF → ∃ t, exec (.ldBVx x) s = .next t ∧
    (t.mem.read s.index.toNat).toNat = (s.reg x).toNat / 100 % 10 ∧
    (t.mem.read (s.index.toNat + 1)).toNat = (s.reg x).toNat / 10 % 10 ∧
    (t.mem.read (s.index.toNat + 2)).toNat = (s.reg x).toNat % 10 ∧
    KeepsMemOutside s.index.toNat 3 s t ∧ EndsAt t (s.pc + 2#16) ∧ KeepsAllBut [.mem] s t

/-- R146: FX55 in range stores register k at I + k for k = 0 to X and changes no other byte (the range: D6). -/
def Obligations.RegistersAreStored : Prop :=
  ∀ (x : Reg) (s : State), s.index.toNat + x.toNat ≤ 0xFFF → ∃ t, exec (.ldMemVx x) s = .next t ∧
    (∀ r : Reg, r.toNat ≤ x.toNat → t.mem.read (s.index.toNat + r.toNat) = s.reg r) ∧
    KeepsMemOutside s.index.toNat (x.toNat + 1) s t ∧ EndsAt t (s.pc + 2#16) ∧ KeepsAllBut [.mem] s t

/-- R147: FX65 in range loads the byte at I + k into register k for k = 0 to X and changes no other register (the
range: D6). -/
def Obligations.RegistersAreLoaded : Prop :=
  ∀ (x : Reg) (s : State), s.index.toNat + x.toNat ≤ 0xFFF → ∃ t, exec (.ldVxMem x) s = .next t ∧
    (∀ r : Reg, t.reg r = if r.toNat ≤ x.toNat then s.mem.read (s.index.toNat + r.toNat) else s.reg r) ∧
    EndsAt t (s.pc + 2#16) ∧ KeepsAllBut [.regs] s t

/-- R182, R185: DXYN, FX33, FX55 and FX65 whose access passes 0xFFF halt the core with cause MemoryOutOfRange and no
partial effect (D6, D8, D9, D12). -/
def Obligations.OutOfRangeAccessHalts : Prop :=
  ∀ (x y : Reg) (n : BitVec 4) (s : State),
    (n ≠ 0 → s.index.toNat + n.toNat - 1 > 0xFFF → ∃ t, exec (.drwVxVyN x y n) s = .next t ∧
      HaltedBy .memoryOutOfRange (0xD#4 ++ x ++ y ++ n) s t) ∧
    (s.index.toNat + 2 > 0xFFF → ∃ t, exec (.ldBVx x) s = .next t ∧
      HaltedBy .memoryOutOfRange (0xF#4 ++ x ++ 0x33#8) s t) ∧
    (s.index.toNat + x.toNat > 0xFFF → ∃ t, exec (.ldMemVx x) s = .next t ∧
      HaltedBy .memoryOutOfRange (0xF#4 ++ x ++ 0x55#8) s t) ∧
    (s.index.toNat + x.toNat > 0xFFF → ∃ t, exec (.ldVxMem x) s = .next t ∧
      HaltedBy .memoryOutOfRange (0xF#4 ++ x ++ 0x65#8) s t)

/-- R144: an instruction that changes I is ANNN, FX1E or FX29: FX33, FX55, FX65 and DXYN leave it. -/
def Obligations.OnlyThreeInstructionsChangeI : Prop :=
  ∀ (i : Instr) (s t : State), exec i s = .next t → t.index ≠ s.index →
    (∃ nnn, i = .ldINNN nnn) ∨ (∃ x, i = .addIVx x) ∨ ∃ x, i = .ldFVx x

/-- R57: what FX55 stored, FX65 loads back into the same registers, as long as memory is what the store left. -/
def Obligations.StoredRegistersAreLoadedBack : Prop :=
  ∀ (x : Reg) (s t u : State), s.index.toNat + x.toNat ≤ 0xFFF → exec (.ldMemVx x) s = .next t →
    u.mem = t.mem → u.index = s.index →
    ∃ w, exec (.ldVxMem x) u = .next w ∧ ∀ r : Reg, r.toNat ≤ x.toNat → w.reg r = s.reg r

/-- R63: an FX55 that stores over the word after it changes what the next Step fetches. -/
def Obligations.StoreIsSeenByTheNextFetch : Prop :=
  ∀ (x : Reg) (s : State), 1 ≤ x.toNat → s.pc.toNat + 2 + x.toNat ≤ 0xFFF → s.index = s.pc + 2#16 →
    ∃ t, exec (.ldMemVx x) s = .next t ∧ t.fetch = some (s.reg 0x0#4 ++ s.reg 0x1#4)

/-! ### Display (44_display.md) -/

/-- R151: 00E0, that word exactly (the exact pattern is decision D13), turns every pixel off; VF and everything else
stay. -/
def Obligations.ClearTurnsEveryPixelOff : Prop :=
  (∀ op, decode op = .ok .cls ↔ op = 0x00E0#16) ∧
  ∀ s : State, ∃ t, exec .cls s = .next t ∧ (∀ x y, x < 64 → y < 32 → t.fb.get x y = false) ∧
    EndsAt t (s.pc + 2#16) ∧ KeepsAllBut [.plane] s t

/-- R152: DXYN in range exclusive-ors the sprite's set bits into the pixels they fall on and no other, and leaves in VF
1 exactly when one of those was on (clipping: D11; VF written last: D10; N = 0 reads nothing: D12; the range: D6). -/
def Obligations.DrawXorsTheSprite : Prop :=
  ∀ (x y : Reg) (n : BitVec 4) (s : State), (n = 0 ∨ s.index.toNat + n.toNat - 1 ≤ 0xFFF) →
    ∃ t, exec (.drwVxVyN x y n) s = .next t ∧
      (∀ px py, px < 64 → py < 32 → t.fb.get px py = (s.fb.get px py ^^ spriteBit s x y n px py)) ∧
      (Collides s x y n → t.reg Reg.vf = 1#8) ∧ (¬ Collides s x y n → t.reg Reg.vf = 0#8) ∧
      EndsAt t (s.pc + 2#16) ∧ KeepsRegsBut [Reg.vf] s t ∧ KeepsAllBut [.plane, .regs] s t

/-- R153: two draws of the same sprite at the same place with nothing else drawn between restore the plane; if a set
bit of the sprite shows, one of the two collides, the second if the first did not; if none shows, neither does. -/
def Obligations.DrawingTwiceRestoresThePlane : Prop :=
  ∀ (x y : Reg) (n : BitVec 4) (s t u w : State), (n = 0 ∨ s.index.toNat + n.toNat - 1 ≤ 0xFFF) →
    exec (.drwVxVyN x y n) s = .next t → exec (.drwVxVyN x y n) u = .next w →
    u.fb = t.fb → u.reg x = s.reg x → u.reg y = s.reg y → u.index = s.index →
    (∀ k, k < n.toNat → u.mem.read (u.index.toNat + k) = s.mem.read (s.index.toNat + k)) →
    (∀ px py, px < 64 → py < 32 → w.fb.get px py = s.fb.get px py) ∧
    (SpriteShows s x y n → t.reg Reg.vf = 1#8 ∨ w.reg Reg.vf = 1#8) ∧
    (SpriteShows s x y n → t.reg Reg.vf = 0#8 → w.reg Reg.vf = 1#8) ∧
    (¬ SpriteShows s x y n → t.reg Reg.vf = 0#8 ∧ w.reg Reg.vf = 0#8)

/-! ### Keypad (45_keypad.md) -/

/-- R161, R162: EX9E skips exactly when a key is down and equals the whole V[X], EXA1 exactly when EX9E would not
(D16); nothing else changes, KEY_NEW is not consumed. -/
def Obligations.SkipsOnTheCurrentKey : Prop :=
  ∀ (x : Reg) (s : State),
    (∃ t, exec (.skpVx x) s = .next t ∧
      EndsAt t (if ∃ k, s.keyCur = some k ∧ k.toNat = (s.reg x).toNat then s.pc + 4#16 else s.pc + 2#16) ∧
      KeepsAllBut [] s t) ∧
    (∃ t, exec (.sknpVx x) s = .next t ∧
      EndsAt t (if ∃ k, s.keyCur = some k ∧ k.toNat = (s.reg x).toNat then s.pc + 2#16 else s.pc + 4#16) ∧
      KeepsAllBut [] s t)

/-- R163: FX0A with a new key k puts k in V[X], consumes it and goes on; without one it sets WAIT, latches X in WAITX
and leaves PC on the instruction, event waiting (D15). -/
def Obligations.KeyWaitTakesAKeyOrSuspends : Prop :=
  ∀ (x : Reg) (s : State),
    (∀ k, s.keyNew = some k → ∃ t, exec (.ldVxK x) s = .next t ∧ (t.reg x).toNat = k.toNat ∧ t.keyNew = none ∧
      EndsAt t (s.pc + 2#16) ∧ KeepsRegsBut [x] s t ∧ KeepsAllBut [.regs, .keyNew] s t) ∧
    (s.keyNew = none → ∃ t, exec (.ldVxK x) s = .next t ∧ t.wait = true ∧ t.waitX = x ∧ t.pc = s.pc ∧
      t.event = .waiting ∧ KeepsAllBut [.wait] s t)

/-! ### Timers (46_timers.md) -/

/-- R171, R172, R173: FX07 copies DT to V[X], FX15 copies V[X] to DT, FX18 copies V[X] to ST; nothing else changes, and
the first Tick after a write counts the written value down by one (from 0 not at all). -/
def Obligations.TimerRegistersAreCopied : Prop :=
  ∀ (x : Reg) (s : State),
    decode (0xF#4 ++ x ++ 0x07#8) = .ok (.ldVxDT x) ∧ decode (0xF#4 ++ x ++ 0x15#8) = .ok (.ldDTVx x) ∧
    decode (0xF#4 ++ x ++ 0x18#8) = .ok (.ldSTVx x) ∧
    (∃ t, exec (.ldVxDT x) s = .next t ∧ t.reg x = s.dt ∧ EndsAt t (s.pc + 2#16) ∧ KeepsRegsBut [x] s t ∧
      KeepsAllBut [.regs] s t) ∧
    (∃ t, exec (.ldDTVx x) s = .next t ∧ t.dt = s.reg x ∧
      t.tick.dt.toNat = (s.reg x).toNat - 1 ∧ EndsAt t (s.pc + 2#16) ∧ KeepsAllBut [.dt] s t) ∧
    (∃ t, exec (.ldSTVx x) s = .next t ∧ t.st = s.reg x ∧
      t.tick.st.toNat = (s.reg x).toNat - 1 ∧ EndsAt t (s.pc + 2#16) ∧ KeepsAllBut [.st] s t)

/-- R27: ST is written by FX18 from V[X] and by a Tick when it is not 0, and no instruction reads it: with another ST
before, an instruction leaves the same state but for ST. -/
def Obligations.SoundTimerIsNeverRead : Prop :=
  (∀ (x : Reg) (s : State), ∃ t, exec (.ldSTVx x) s = .next t ∧ t.st = s.reg x) ∧
  (∀ s : State, s.tick.st.toNat = s.st.toNat - 1) ∧
  (∀ (i : Instr) (s t : State) (b : Byte), exec i s = .next t → (∀ x, i ≠ .ldSTVx x) →
    t.st = s.st ∧ exec i { s with st := b } = .next { t with st := b }) ∧
  (∀ (x : Reg) (s : State) (b : Byte), exec (.ldSTVx x) { s with st := b } = exec (.ldSTVx x) s)

/-! ### The whole machine -/

/-- R182, R183, R185, R187: a Step of a running core faults exactly when the tables of R182 and R183 say, with that
cause, the word it fetched (0x0000 if none) in the record, and nothing else changed (D1, D6, D8, D9, D12); the event of a
fetch fault carries that 0x0000 by the model's choice (log 16), and the word is that of the instruction (log 10). -/
def Obligations.StepFaultsExactlyAsTabled : Prop :=
  ∀ s t : State, s.running → step s = .next t →
    (∀ c, stepFault s = some c → HaltedBy c (s.fetch.getD 0x0000#16) s.deliver t) ∧
    (stepFault s = none → t.halt = false ∧ Part.halt.same s t)

/-- R36, R96: an instruction either completes, and then changes no part, no register, no byte of memory and no stack
entry that its row of R36 does not list (FX33 stores 3 bytes at I, FX55 X + 1 bytes at I, 2NNN writes STACK[SP], 00EE no
entry), or faults, and then changes nothing but HALT and the fault record (D8; its word: log 10). -/
def Obligations.InstructionChangesOnlyItsRow : Prop :=
  ∀ (i : Instr) (s t : State), exec i s = .next t →
    (instrFault s i = none → KeepsAllBut (writes i) s t ∧ (∀ r, ¬ regWrites i r → t.reg r = s.reg r) ∧
      KeepsMemOutside s.base (storedBytes i) s t ∧ ∀ k, ¬ entryWrites s i k → t.entry k = s.entry k) ∧
    (∀ c, instrFault s i = some c → HaltedBy c (encode i) s t)

/-- R21: an instruction that changes VF is one of the six that write it as a flag, and then leaves 0 or 1 in it (with
X = 15 too: D10), or names VF as its X, or is FF65. -/
def Obligations.VFIsWrittenOnlyAsListed : Prop :=
  ∀ (i : Instr) (s t : State), exec i s = .next t → t.reg Reg.vf ≠ s.reg Reg.vf →
    ((∃ x y, i = .addVxVy x y ∨ i = .subVxVy x y ∨ i = .shrVx x y ∨ i = .subnVxVy x y ∨ i = .shlVx x y ∨
        ∃ n, i = .drwVxVyN x y n) ∧ (t.reg Reg.vf = 0#8 ∨ t.reg Reg.vf = 1#8)) ∨
    (∃ nn, i = .ldVxNN Reg.vf nn ∨ i = .addVxNN Reg.vf nn ∨ i = .rndVxNN Reg.vf nn) ∨
    (∃ y, i = .ldVxVy Reg.vf y ∨ i = .orVxVy Reg.vf y ∨ i = .andVxVy Reg.vf y ∨ i = .xorVxVy Reg.vf y) ∨
    i = .ldVxDT Reg.vf ∨ i = .ldVxK Reg.vf ∨ i = .ldVxMem Reg.vf

/-- R7, R36: over a step a byte of memory changes only where an FX33 or FX55 that the Step runs stores it. -/
def Obligations.MemoryChangesOnlyByTwoStores : Prop :=
  ∀ (s t : State) (a : Nat), step s = .next t → t.mem.read a ≠ s.mem.read a →
    ∃ op x, s.fetch = some op ∧ s.index.toNat ≤ a ∧
      ((decode op = .ok (.ldBVx x) ∧ a ≤ s.index.toNat + 2) ∨
        (decode op = .ok (.ldMemVx x) ∧ a ≤ s.index.toNat + x.toNat))

/-- R154, R32: over a step the pixel plane changes only if the Step runs 00E0 or DXYN. -/
def Obligations.PlaneChangesOnlyByClearOrDraw : Prop :=
  ∀ s t : State, step s = .next t → t.fb ≠ s.fb →
    ∃ op, s.fetch = some op ∧ (decode op = .ok .cls ∨ ∃ x y n, decode op = .ok (.drwVxVyN x y n))

/-- The invariant of Safety.lean (memory's canonical form, R23, R100, R98, R181, R31, R29) is kept by every step. -/
def Obligations.StepKeepsTheInvariant : Prop := ∀ s t : State, Inv s → step s = .next t → Inv t

/-- The invariant holds after reset (its zeros are D3 and D9, log 9). -/
def Obligations.ResetMeetsTheInvariant : Prop := Inv State.reset

/-- R213, R64, R210: a launch that meets the premises answers the reset state with the image in place and PC at its
first byte, which meets the invariant; one that does not is refused (D2, D30). What it takes over from the reset state
rests on D3, D4, D5, D9 (the zeros: log 8, log 9), D20 (the font: log 7), log 2 (no event) and log 4 (no key in
InputState); that a session with an image is `launch` is the model's form (log 12). -/
def Obligations.LaunchPlacesTheImage : Prop :=
  ∀ l : Launch,
    (0x200 ≤ l.loadAddr → l.loadAddr ≤ 0xFFE → l.loadAddr + l.image.length ≤ 0x1000 →
      ∃ t, launch l = .next t ∧ Inv t ∧ t.pc.toNat = l.loadAddr ∧
        (∀ k b, l.image[k]? = some b → t.mem.read (l.loadAddr + k) = b) ∧
        KeepsMemOutside l.loadAddr l.image.length State.reset t ∧ t.event = .none ∧
        KeepsAllBut [.mem] State.reset t) ∧
    (¬ (0x200 ≤ l.loadAddr ∧ l.loadAddr ≤ 0xFFE ∧ l.loadAddr + l.image.length ≤ 0x1000) →
      ∃ r, launch l = .refused r)

/-- R35, R52: the reset state, with all 16 glyphs of the font (the zeros are D3, D4, D5 and D9, log 8 and log 9, the font
bytes D20 and log 7). -/
def Obligations.ResetStateIsAsTabled : Prop :=
  let s := State.reset
  (∀ r, s.reg r = 0#8) ∧ s.index = 0#16 ∧ s.pc = 0x200#16 ∧ s.sp.val = 0 ∧ (∀ k, s.entry k = 0#16) ∧ s.dt = 0#8 ∧
  s.st = 0#8 ∧ s.wait = false ∧ s.waitX = 0#4 ∧ s.halt = false ∧ s.faultCause = .none ∧ s.faultPc = 0#16 ∧
  s.faultOp = 0#16 ∧ (∀ x y, x < 64 → y < 32 → s.fb.get x y = false) ∧
  (∀ a, a < 0x050 ∨ 0x0A0 ≤ a → s.mem.read a = 0#8) ∧
  (List.range 16).map (fun d => (List.range 5).map fun k => s.mem.read (0x050 + 5 * d + k)) =
    [[0xF0#8, 0x90#8, 0x90#8, 0x90#8, 0xF0#8], [0x20#8, 0x60#8, 0x20#8, 0x20#8, 0x70#8],
      [0xF0#8, 0x10#8, 0xF0#8, 0x80#8, 0xF0#8], [0xF0#8, 0x10#8, 0xF0#8, 0x10#8, 0xF0#8],
      [0x90#8, 0x90#8, 0xF0#8, 0x10#8, 0x10#8], [0xF0#8, 0x80#8, 0xF0#8, 0x10#8, 0xF0#8],
      [0xF0#8, 0x80#8, 0xF0#8, 0x90#8, 0xF0#8], [0xF0#8, 0x10#8, 0x20#8, 0x40#8, 0x40#8],
      [0xF0#8, 0x90#8, 0xF0#8, 0x90#8, 0xF0#8], [0xF0#8, 0x90#8, 0xF0#8, 0x10#8, 0xF0#8],
      [0xF0#8, 0x90#8, 0xF0#8, 0x90#8, 0x90#8], [0xE0#8, 0x90#8, 0xE0#8, 0x90#8, 0xE0#8],
      [0xF0#8, 0x80#8, 0x80#8, 0x80#8, 0xF0#8], [0xE0#8, 0x90#8, 0x90#8, 0x90#8, 0xE0#8],
      [0xF0#8, 0x80#8, 0xF0#8, 0x80#8, 0xF0#8], [0xF0#8, 0x80#8, 0xF0#8, 0x80#8, 0x80#8]]
end

