-- ==== Sys2Proof/Laws/State.lean ====
section
/-!
SUPPORT. What each named update does to each field of State, true by unfolding the update once.
-/

namespace Sys2Proof.Machine

variable (s : State)

/-! ### setIndex -/

@[simp] theorem State.setIndex_v (w : Word) : (s.setIndex w).v = s.v := rfl
@[simp] theorem State.setIndex_index (w : Word) : (s.setIndex w).index = w := rfl
@[simp] theorem State.setIndex_pc (w : Word) : (s.setIndex w).pc = s.pc := rfl
@[simp] theorem State.setIndex_stack (w : Word) : (s.setIndex w).stack = s.stack := rfl
@[simp] theorem State.setIndex_sp (w : Word) : (s.setIndex w).sp = s.sp := rfl
@[simp] theorem State.setIndex_dt (w : Word) : (s.setIndex w).dt = s.dt := rfl
@[simp] theorem State.setIndex_st (w : Word) : (s.setIndex w).st = s.st := rfl
@[simp] theorem State.setIndex_mem (w : Word) : (s.setIndex w).mem = s.mem := rfl
@[simp] theorem State.setIndex_wait (w : Word) : (s.setIndex w).wait = s.wait := rfl
@[simp] theorem State.setIndex_waitX (w : Word) : (s.setIndex w).waitX = s.waitX := rfl
@[simp] theorem State.setIndex_halt (w : Word) : (s.setIndex w).halt = s.halt := rfl
@[simp] theorem State.setIndex_faultCause (w : Word) : (s.setIndex w).faultCause = s.faultCause := rfl
@[simp] theorem State.setIndex_faultPc (w : Word) : (s.setIndex w).faultPc = s.faultPc := rfl
@[simp] theorem State.setIndex_faultOp (w : Word) : (s.setIndex w).faultOp = s.faultOp := rfl
@[simp] theorem State.setIndex_fb (w : Word) : (s.setIndex w).fb = s.fb := rfl
@[simp] theorem State.setIndex_keyCur (w : Word) : (s.setIndex w).keyCur = s.keyCur := rfl
@[simp] theorem State.setIndex_keyNew (w : Word) : (s.setIndex w).keyNew = s.keyNew := rfl
@[simp] theorem State.setIndex_event (w : Word) : (s.setIndex w).event = s.event := rfl
@[simp] theorem State.setIndex_clock (w : Word) : (s.setIndex w).clock = s.clock := rfl
@[simp] theorem State.setIndex_rndCount (w : Word) : (s.setIndex w).rndCount = s.rndCount := rfl
@[simp] theorem State.setIndex_reg (w : Word) (r : Reg) : (s.setIndex w).reg r = s.reg r := rfl

/-! ### setDt -/

@[simp] theorem State.setDt_v (b : Byte) : (s.setDt b).v = s.v := rfl
@[simp] theorem State.setDt_index (b : Byte) : (s.setDt b).index = s.index := rfl
@[simp] theorem State.setDt_pc (b : Byte) : (s.setDt b).pc = s.pc := rfl
@[simp] theorem State.setDt_stack (b : Byte) : (s.setDt b).stack = s.stack := rfl
@[simp] theorem State.setDt_sp (b : Byte) : (s.setDt b).sp = s.sp := rfl
@[simp] theorem State.setDt_dt (b : Byte) : (s.setDt b).dt = b := rfl
@[simp] theorem State.setDt_st (b : Byte) : (s.setDt b).st = s.st := rfl
@[simp] theorem State.setDt_mem (b : Byte) : (s.setDt b).mem = s.mem := rfl
@[simp] theorem State.setDt_wait (b : Byte) : (s.setDt b).wait = s.wait := rfl
@[simp] theorem State.setDt_waitX (b : Byte) : (s.setDt b).waitX = s.waitX := rfl
@[simp] theorem State.setDt_halt (b : Byte) : (s.setDt b).halt = s.halt := rfl
@[simp] theorem State.setDt_faultCause (b : Byte) : (s.setDt b).faultCause = s.faultCause := rfl
@[simp] theorem State.setDt_faultPc (b : Byte) : (s.setDt b).faultPc = s.faultPc := rfl
@[simp] theorem State.setDt_faultOp (b : Byte) : (s.setDt b).faultOp = s.faultOp := rfl
@[simp] theorem State.setDt_fb (b : Byte) : (s.setDt b).fb = s.fb := rfl
@[simp] theorem State.setDt_keyCur (b : Byte) : (s.setDt b).keyCur = s.keyCur := rfl
@[simp] theorem State.setDt_keyNew (b : Byte) : (s.setDt b).keyNew = s.keyNew := rfl
@[simp] theorem State.setDt_event (b : Byte) : (s.setDt b).event = s.event := rfl
@[simp] theorem State.setDt_clock (b : Byte) : (s.setDt b).clock = s.clock := rfl
@[simp] theorem State.setDt_rndCount (b : Byte) : (s.setDt b).rndCount = s.rndCount := rfl
@[simp] theorem State.setDt_reg (b : Byte) (r : Reg) : (s.setDt b).reg r = s.reg r := rfl

/-! ### setSt -/

@[simp] theorem State.setSt_v (b : Byte) : (s.setSt b).v = s.v := rfl
@[simp] theorem State.setSt_index (b : Byte) : (s.setSt b).index = s.index := rfl
@[simp] theorem State.setSt_pc (b : Byte) : (s.setSt b).pc = s.pc := rfl
@[simp] theorem State.setSt_stack (b : Byte) : (s.setSt b).stack = s.stack := rfl
@[simp] theorem State.setSt_sp (b : Byte) : (s.setSt b).sp = s.sp := rfl
@[simp] theorem State.setSt_dt (b : Byte) : (s.setSt b).dt = s.dt := rfl
@[simp] theorem State.setSt_st (b : Byte) : (s.setSt b).st = b := rfl
@[simp] theorem State.setSt_mem (b : Byte) : (s.setSt b).mem = s.mem := rfl
@[simp] theorem State.setSt_wait (b : Byte) : (s.setSt b).wait = s.wait := rfl
@[simp] theorem State.setSt_waitX (b : Byte) : (s.setSt b).waitX = s.waitX := rfl
@[simp] theorem State.setSt_halt (b : Byte) : (s.setSt b).halt = s.halt := rfl
@[simp] theorem State.setSt_faultCause (b : Byte) : (s.setSt b).faultCause = s.faultCause := rfl
@[simp] theorem State.setSt_faultPc (b : Byte) : (s.setSt b).faultPc = s.faultPc := rfl
@[simp] theorem State.setSt_faultOp (b : Byte) : (s.setSt b).faultOp = s.faultOp := rfl
@[simp] theorem State.setSt_fb (b : Byte) : (s.setSt b).fb = s.fb := rfl
@[simp] theorem State.setSt_keyCur (b : Byte) : (s.setSt b).keyCur = s.keyCur := rfl
@[simp] theorem State.setSt_keyNew (b : Byte) : (s.setSt b).keyNew = s.keyNew := rfl
@[simp] theorem State.setSt_event (b : Byte) : (s.setSt b).event = s.event := rfl
@[simp] theorem State.setSt_clock (b : Byte) : (s.setSt b).clock = s.clock := rfl
@[simp] theorem State.setSt_rndCount (b : Byte) : (s.setSt b).rndCount = s.rndCount := rfl
@[simp] theorem State.setSt_reg (b : Byte) (r : Reg) : (s.setSt b).reg r = s.reg r := rfl

/-! ### setPlane -/

@[simp] theorem State.setPlane_v (p : Plane) : (s.setPlane p).v = s.v := rfl
@[simp] theorem State.setPlane_index (p : Plane) : (s.setPlane p).index = s.index := rfl
@[simp] theorem State.setPlane_pc (p : Plane) : (s.setPlane p).pc = s.pc := rfl
@[simp] theorem State.setPlane_stack (p : Plane) : (s.setPlane p).stack = s.stack := rfl
@[simp] theorem State.setPlane_sp (p : Plane) : (s.setPlane p).sp = s.sp := rfl
@[simp] theorem State.setPlane_dt (p : Plane) : (s.setPlane p).dt = s.dt := rfl
@[simp] theorem State.setPlane_st (p : Plane) : (s.setPlane p).st = s.st := rfl
@[simp] theorem State.setPlane_mem (p : Plane) : (s.setPlane p).mem = s.mem := rfl
@[simp] theorem State.setPlane_wait (p : Plane) : (s.setPlane p).wait = s.wait := rfl
@[simp] theorem State.setPlane_waitX (p : Plane) : (s.setPlane p).waitX = s.waitX := rfl
@[simp] theorem State.setPlane_halt (p : Plane) : (s.setPlane p).halt = s.halt := rfl
@[simp] theorem State.setPlane_faultCause (p : Plane) : (s.setPlane p).faultCause = s.faultCause := rfl
@[simp] theorem State.setPlane_faultPc (p : Plane) : (s.setPlane p).faultPc = s.faultPc := rfl
@[simp] theorem State.setPlane_faultOp (p : Plane) : (s.setPlane p).faultOp = s.faultOp := rfl
@[simp] theorem State.setPlane_fb (p : Plane) : (s.setPlane p).fb = p := rfl
@[simp] theorem State.setPlane_keyCur (p : Plane) : (s.setPlane p).keyCur = s.keyCur := rfl
@[simp] theorem State.setPlane_keyNew (p : Plane) : (s.setPlane p).keyNew = s.keyNew := rfl
@[simp] theorem State.setPlane_event (p : Plane) : (s.setPlane p).event = s.event := rfl
@[simp] theorem State.setPlane_clock (p : Plane) : (s.setPlane p).clock = s.clock := rfl
@[simp] theorem State.setPlane_rndCount (p : Plane) : (s.setPlane p).rndCount = s.rndCount := rfl
@[simp] theorem State.setPlane_reg (p : Plane) (r : Reg) : (s.setPlane p).reg r = s.reg r := rfl

/-! ### setMem -/

@[simp] theorem State.setMem_v (m : Memory) : (s.setMem m).v = s.v := rfl
@[simp] theorem State.setMem_index (m : Memory) : (s.setMem m).index = s.index := rfl
@[simp] theorem State.setMem_pc (m : Memory) : (s.setMem m).pc = s.pc := rfl
@[simp] theorem State.setMem_stack (m : Memory) : (s.setMem m).stack = s.stack := rfl
@[simp] theorem State.setMem_sp (m : Memory) : (s.setMem m).sp = s.sp := rfl
@[simp] theorem State.setMem_dt (m : Memory) : (s.setMem m).dt = s.dt := rfl
@[simp] theorem State.setMem_st (m : Memory) : (s.setMem m).st = s.st := rfl
@[simp] theorem State.setMem_mem (m : Memory) : (s.setMem m).mem = m := rfl
@[simp] theorem State.setMem_wait (m : Memory) : (s.setMem m).wait = s.wait := rfl
@[simp] theorem State.setMem_waitX (m : Memory) : (s.setMem m).waitX = s.waitX := rfl
@[simp] theorem State.setMem_halt (m : Memory) : (s.setMem m).halt = s.halt := rfl
@[simp] theorem State.setMem_faultCause (m : Memory) : (s.setMem m).faultCause = s.faultCause := rfl
@[simp] theorem State.setMem_faultPc (m : Memory) : (s.setMem m).faultPc = s.faultPc := rfl
@[simp] theorem State.setMem_faultOp (m : Memory) : (s.setMem m).faultOp = s.faultOp := rfl
@[simp] theorem State.setMem_fb (m : Memory) : (s.setMem m).fb = s.fb := rfl
@[simp] theorem State.setMem_keyCur (m : Memory) : (s.setMem m).keyCur = s.keyCur := rfl
@[simp] theorem State.setMem_keyNew (m : Memory) : (s.setMem m).keyNew = s.keyNew := rfl
@[simp] theorem State.setMem_event (m : Memory) : (s.setMem m).event = s.event := rfl
@[simp] theorem State.setMem_clock (m : Memory) : (s.setMem m).clock = s.clock := rfl
@[simp] theorem State.setMem_rndCount (m : Memory) : (s.setMem m).rndCount = s.rndCount := rfl
@[simp] theorem State.setMem_reg (m : Memory) (r : Reg) : (s.setMem m).reg r = s.reg r := rfl

/-! ### setReg -/

@[simp] theorem State.setReg_index (x : Reg) (b : Byte) : (s.setReg x b).index = s.index := rfl
@[simp] theorem State.setReg_pc (x : Reg) (b : Byte) : (s.setReg x b).pc = s.pc := rfl
@[simp] theorem State.setReg_stack (x : Reg) (b : Byte) : (s.setReg x b).stack = s.stack := rfl
@[simp] theorem State.setReg_sp (x : Reg) (b : Byte) : (s.setReg x b).sp = s.sp := rfl
@[simp] theorem State.setReg_dt (x : Reg) (b : Byte) : (s.setReg x b).dt = s.dt := rfl
@[simp] theorem State.setReg_st (x : Reg) (b : Byte) : (s.setReg x b).st = s.st := rfl
@[simp] theorem State.setReg_mem (x : Reg) (b : Byte) : (s.setReg x b).mem = s.mem := rfl
@[simp] theorem State.setReg_wait (x : Reg) (b : Byte) : (s.setReg x b).wait = s.wait := rfl
@[simp] theorem State.setReg_waitX (x : Reg) (b : Byte) : (s.setReg x b).waitX = s.waitX := rfl
@[simp] theorem State.setReg_halt (x : Reg) (b : Byte) : (s.setReg x b).halt = s.halt := rfl
@[simp] theorem State.setReg_faultCause (x : Reg) (b : Byte) : (s.setReg x b).faultCause = s.faultCause := rfl
@[simp] theorem State.setReg_faultPc (x : Reg) (b : Byte) : (s.setReg x b).faultPc = s.faultPc := rfl
@[simp] theorem State.setReg_faultOp (x : Reg) (b : Byte) : (s.setReg x b).faultOp = s.faultOp := rfl
@[simp] theorem State.setReg_fb (x : Reg) (b : Byte) : (s.setReg x b).fb = s.fb := rfl
@[simp] theorem State.setReg_keyCur (x : Reg) (b : Byte) : (s.setReg x b).keyCur = s.keyCur := rfl
@[simp] theorem State.setReg_keyNew (x : Reg) (b : Byte) : (s.setReg x b).keyNew = s.keyNew := rfl
@[simp] theorem State.setReg_event (x : Reg) (b : Byte) : (s.setReg x b).event = s.event := rfl
@[simp] theorem State.setReg_clock (x : Reg) (b : Byte) : (s.setReg x b).clock = s.clock := rfl
@[simp] theorem State.setReg_rndCount (x : Reg) (b : Byte) : (s.setReg x b).rndCount = s.rndCount := rfl

/-! ### setRegs -/

@[simp] theorem State.setRegs_index (bytes : List Byte) : (s.setRegs bytes).index = s.index := rfl
@[simp] theorem State.setRegs_pc (bytes : List Byte) : (s.setRegs bytes).pc = s.pc := rfl
@[simp] theorem State.setRegs_stack (bytes : List Byte) : (s.setRegs bytes).stack = s.stack := rfl
@[simp] theorem State.setRegs_sp (bytes : List Byte) : (s.setRegs bytes).sp = s.sp := rfl
@[simp] theorem State.setRegs_dt (bytes : List Byte) : (s.setRegs bytes).dt = s.dt := rfl
@[simp] theorem State.setRegs_st (bytes : List Byte) : (s.setRegs bytes).st = s.st := rfl
@[simp] theorem State.setRegs_mem (bytes : List Byte) : (s.setRegs bytes).mem = s.mem := rfl
@[simp] theorem State.setRegs_wait (bytes : List Byte) : (s.setRegs bytes).wait = s.wait := rfl
@[simp] theorem State.setRegs_waitX (bytes : List Byte) : (s.setRegs bytes).waitX = s.waitX := rfl
@[simp] theorem State.setRegs_halt (bytes : List Byte) : (s.setRegs bytes).halt = s.halt := rfl
@[simp] theorem State.setRegs_faultCause (bytes : List Byte) : (s.setRegs bytes).faultCause = s.faultCause := rfl
@[simp] theorem State.setRegs_faultPc (bytes : List Byte) : (s.setRegs bytes).faultPc = s.faultPc := rfl
@[simp] theorem State.setRegs_faultOp (bytes : List Byte) : (s.setRegs bytes).faultOp = s.faultOp := rfl
@[simp] theorem State.setRegs_fb (bytes : List Byte) : (s.setRegs bytes).fb = s.fb := rfl
@[simp] theorem State.setRegs_keyCur (bytes : List Byte) : (s.setRegs bytes).keyCur = s.keyCur := rfl
@[simp] theorem State.setRegs_keyNew (bytes : List Byte) : (s.setRegs bytes).keyNew = s.keyNew := rfl
@[simp] theorem State.setRegs_event (bytes : List Byte) : (s.setRegs bytes).event = s.event := rfl
@[simp] theorem State.setRegs_clock (bytes : List Byte) : (s.setRegs bytes).clock = s.clock := rfl
@[simp] theorem State.setRegs_rndCount (bytes : List Byte) : (s.setRegs bytes).rndCount = s.rndCount := rfl

/-! ### setResultFlag -/

@[simp] theorem State.setResultFlag_index (x : Reg) (b : Byte) (f : Bool) : (s.setResultFlag x b f).index = s.index := rfl
@[simp] theorem State.setResultFlag_pc (x : Reg) (b : Byte) (f : Bool) : (s.setResultFlag x b f).pc = s.pc := rfl
@[simp] theorem State.setResultFlag_stack (x : Reg) (b : Byte) (f : Bool) : (s.setResultFlag x b f).stack = s.stack := rfl
@[simp] theorem State.setResultFlag_sp (x : Reg) (b : Byte) (f : Bool) : (s.setResultFlag x b f).sp = s.sp := rfl
@[simp] theorem State.setResultFlag_dt (x : Reg) (b : Byte) (f : Bool) : (s.setResultFlag x b f).dt = s.dt := rfl
@[simp] theorem State.setResultFlag_st (x : Reg) (b : Byte) (f : Bool) : (s.setResultFlag x b f).st = s.st := rfl
@[simp] theorem State.setResultFlag_mem (x : Reg) (b : Byte) (f : Bool) : (s.setResultFlag x b f).mem = s.mem := rfl
@[simp] theorem State.setResultFlag_wait (x : Reg) (b : Byte) (f : Bool) : (s.setResultFlag x b f).wait = s.wait := rfl
@[simp] theorem State.setResultFlag_waitX (x : Reg) (b : Byte) (f : Bool) : (s.setResultFlag x b f).waitX = s.waitX := rfl
@[simp] theorem State.setResultFlag_halt (x : Reg) (b : Byte) (f : Bool) : (s.setResultFlag x b f).halt = s.halt := rfl
@[simp] theorem State.setResultFlag_faultCause (x : Reg) (b : Byte) (f : Bool) : (s.setResultFlag x b f).faultCause = s.faultCause := rfl
@[simp] theorem State.setResultFlag_faultPc (x : Reg) (b : Byte) (f : Bool) : (s.setResultFlag x b f).faultPc = s.faultPc := rfl
@[simp] theorem State.setResultFlag_faultOp (x : Reg) (b : Byte) (f : Bool) : (s.setResultFlag x b f).faultOp = s.faultOp := rfl
@[simp] theorem State.setResultFlag_fb (x : Reg) (b : Byte) (f : Bool) : (s.setResultFlag x b f).fb = s.fb := rfl
@[simp] theorem State.setResultFlag_keyCur (x : Reg) (b : Byte) (f : Bool) : (s.setResultFlag x b f).keyCur = s.keyCur := rfl
@[simp] theorem State.setResultFlag_keyNew (x : Reg) (b : Byte) (f : Bool) : (s.setResultFlag x b f).keyNew = s.keyNew := rfl
@[simp] theorem State.setResultFlag_event (x : Reg) (b : Byte) (f : Bool) : (s.setResultFlag x b f).event = s.event := rfl
@[simp] theorem State.setResultFlag_clock (x : Reg) (b : Byte) (f : Bool) : (s.setResultFlag x b f).clock = s.clock := rfl
@[simp] theorem State.setResultFlag_rndCount (x : Reg) (b : Byte) (f : Bool) : (s.setResultFlag x b f).rndCount = s.rndCount := rfl

/-! ### done -/

@[simp] theorem State.done_v : (s.done).v = s.v := rfl
@[simp] theorem State.done_index : (s.done).index = s.index := rfl
@[simp] theorem State.done_pc : (s.done).pc = s.pc + 2#16 := rfl
@[simp] theorem State.done_stack : (s.done).stack = s.stack := rfl
@[simp] theorem State.done_sp : (s.done).sp = s.sp := rfl
@[simp] theorem State.done_dt : (s.done).dt = s.dt := rfl
@[simp] theorem State.done_st : (s.done).st = s.st := rfl
@[simp] theorem State.done_mem : (s.done).mem = s.mem := rfl
@[simp] theorem State.done_wait : (s.done).wait = s.wait := rfl
@[simp] theorem State.done_waitX : (s.done).waitX = s.waitX := rfl
@[simp] theorem State.done_halt : (s.done).halt = s.halt := rfl
@[simp] theorem State.done_faultCause : (s.done).faultCause = s.faultCause := rfl
@[simp] theorem State.done_faultPc : (s.done).faultPc = s.faultPc := rfl
@[simp] theorem State.done_faultOp : (s.done).faultOp = s.faultOp := rfl
@[simp] theorem State.done_fb : (s.done).fb = s.fb := rfl
@[simp] theorem State.done_keyCur : (s.done).keyCur = s.keyCur := rfl
@[simp] theorem State.done_keyNew : (s.done).keyNew = s.keyNew := rfl
@[simp] theorem State.done_event : (s.done).event = .none := rfl
@[simp] theorem State.done_clock : (s.done).clock = s.clock := rfl
@[simp] theorem State.done_rndCount : (s.done).rndCount = s.rndCount := rfl
@[simp] theorem State.done_reg (r : Reg) : (s.done).reg r = s.reg r := rfl

/-! ### jump -/

@[simp] theorem State.jump_v (w : Word) : (s.jump w).v = s.v := rfl
@[simp] theorem State.jump_index (w : Word) : (s.jump w).index = s.index := rfl
@[simp] theorem State.jump_pc (w : Word) : (s.jump w).pc = w := rfl
@[simp] theorem State.jump_stack (w : Word) : (s.jump w).stack = s.stack := rfl
@[simp] theorem State.jump_sp (w : Word) : (s.jump w).sp = s.sp := rfl
@[simp] theorem State.jump_dt (w : Word) : (s.jump w).dt = s.dt := rfl
@[simp] theorem State.jump_st (w : Word) : (s.jump w).st = s.st := rfl
@[simp] theorem State.jump_mem (w : Word) : (s.jump w).mem = s.mem := rfl
@[simp] theorem State.jump_wait (w : Word) : (s.jump w).wait = s.wait := rfl
@[simp] theorem State.jump_waitX (w : Word) : (s.jump w).waitX = s.waitX := rfl
@[simp] theorem State.jump_halt (w : Word) : (s.jump w).halt = s.halt := rfl
@[simp] theorem State.jump_faultCause (w : Word) : (s.jump w).faultCause = s.faultCause := rfl
@[simp] theorem State.jump_faultPc (w : Word) : (s.jump w).faultPc = s.faultPc := rfl
@[simp] theorem State.jump_faultOp (w : Word) : (s.jump w).faultOp = s.faultOp := rfl
@[simp] theorem State.jump_fb (w : Word) : (s.jump w).fb = s.fb := rfl
@[simp] theorem State.jump_keyCur (w : Word) : (s.jump w).keyCur = s.keyCur := rfl
@[simp] theorem State.jump_keyNew (w : Word) : (s.jump w).keyNew = s.keyNew := rfl
@[simp] theorem State.jump_event (w : Word) : (s.jump w).event = .none := rfl
@[simp] theorem State.jump_clock (w : Word) : (s.jump w).clock = s.clock := rfl
@[simp] theorem State.jump_rndCount (w : Word) : (s.jump w).rndCount = s.rndCount := rfl
@[simp] theorem State.jump_reg (w : Word) (r : Reg) : (s.jump w).reg r = s.reg r := rfl

/-! ### skipIf -/

@[simp] theorem State.skipIf_v (b : Bool) : (s.skipIf b).v = s.v := rfl
@[simp] theorem State.skipIf_index (b : Bool) : (s.skipIf b).index = s.index := rfl
@[simp] theorem State.skipIf_pc (b : Bool) : (s.skipIf b).pc = if b then s.pc + 2#16 + 2#16 else s.pc + 2#16 := rfl
@[simp] theorem State.skipIf_stack (b : Bool) : (s.skipIf b).stack = s.stack := rfl
@[simp] theorem State.skipIf_sp (b : Bool) : (s.skipIf b).sp = s.sp := rfl
@[simp] theorem State.skipIf_dt (b : Bool) : (s.skipIf b).dt = s.dt := rfl
@[simp] theorem State.skipIf_st (b : Bool) : (s.skipIf b).st = s.st := rfl
@[simp] theorem State.skipIf_mem (b : Bool) : (s.skipIf b).mem = s.mem := rfl
@[simp] theorem State.skipIf_wait (b : Bool) : (s.skipIf b).wait = s.wait := rfl
@[simp] theorem State.skipIf_waitX (b : Bool) : (s.skipIf b).waitX = s.waitX := rfl
@[simp] theorem State.skipIf_halt (b : Bool) : (s.skipIf b).halt = s.halt := rfl
@[simp] theorem State.skipIf_faultCause (b : Bool) : (s.skipIf b).faultCause = s.faultCause := rfl
@[simp] theorem State.skipIf_faultPc (b : Bool) : (s.skipIf b).faultPc = s.faultPc := rfl
@[simp] theorem State.skipIf_faultOp (b : Bool) : (s.skipIf b).faultOp = s.faultOp := rfl
@[simp] theorem State.skipIf_fb (b : Bool) : (s.skipIf b).fb = s.fb := rfl
@[simp] theorem State.skipIf_keyCur (b : Bool) : (s.skipIf b).keyCur = s.keyCur := rfl
@[simp] theorem State.skipIf_keyNew (b : Bool) : (s.skipIf b).keyNew = s.keyNew := rfl
@[simp] theorem State.skipIf_event (b : Bool) : (s.skipIf b).event = .none := rfl
@[simp] theorem State.skipIf_clock (b : Bool) : (s.skipIf b).clock = s.clock := rfl
@[simp] theorem State.skipIf_rndCount (b : Bool) : (s.skipIf b).rndCount = s.rndCount := rfl
@[simp] theorem State.skipIf_reg (b : Bool) (r : Reg) : (s.skipIf b).reg r = s.reg r := rfl

/-! ### raise -/

@[simp] theorem State.raise_v (c : Cause) (op : Word) : (s.raise c op).v = s.v := rfl
@[simp] theorem State.raise_index (c : Cause) (op : Word) : (s.raise c op).index = s.index := rfl
@[simp] theorem State.raise_pc (c : Cause) (op : Word) : (s.raise c op).pc = s.pc := rfl
@[simp] theorem State.raise_stack (c : Cause) (op : Word) : (s.raise c op).stack = s.stack := rfl
@[simp] theorem State.raise_sp (c : Cause) (op : Word) : (s.raise c op).sp = s.sp := rfl
@[simp] theorem State.raise_dt (c : Cause) (op : Word) : (s.raise c op).dt = s.dt := rfl
@[simp] theorem State.raise_st (c : Cause) (op : Word) : (s.raise c op).st = s.st := rfl
@[simp] theorem State.raise_mem (c : Cause) (op : Word) : (s.raise c op).mem = s.mem := rfl
@[simp] theorem State.raise_wait (c : Cause) (op : Word) : (s.raise c op).wait = s.wait := rfl
@[simp] theorem State.raise_waitX (c : Cause) (op : Word) : (s.raise c op).waitX = s.waitX := rfl
@[simp] theorem State.raise_halt (c : Cause) (op : Word) : (s.raise c op).halt = true := rfl
@[simp] theorem State.raise_faultCause (c : Cause) (op : Word) : (s.raise c op).faultCause = c := rfl
@[simp] theorem State.raise_faultPc (c : Cause) (op : Word) : (s.raise c op).faultPc = s.pc := rfl
@[simp] theorem State.raise_faultOp (c : Cause) (op : Word) : (s.raise c op).faultOp = op := rfl
@[simp] theorem State.raise_fb (c : Cause) (op : Word) : (s.raise c op).fb = s.fb := rfl
@[simp] theorem State.raise_keyCur (c : Cause) (op : Word) : (s.raise c op).keyCur = s.keyCur := rfl
@[simp] theorem State.raise_keyNew (c : Cause) (op : Word) : (s.raise c op).keyNew = s.keyNew := rfl
@[simp] theorem State.raise_event (c : Cause) (op : Word) : (s.raise c op).event = .fault c op s.pc := rfl
@[simp] theorem State.raise_clock (c : Cause) (op : Word) : (s.raise c op).clock = s.clock := rfl
@[simp] theorem State.raise_rndCount (c : Cause) (op : Word) : (s.raise c op).rndCount = s.rndCount := rfl
@[simp] theorem State.raise_reg (c : Cause) (op : Word) (r : Reg) : (s.raise c op).reg r = s.reg r := rfl

/-! ### countRnd -/

@[simp] theorem State.countRnd_v : (s.countRnd).v = s.v := rfl
@[simp] theorem State.countRnd_index : (s.countRnd).index = s.index := rfl
@[simp] theorem State.countRnd_pc : (s.countRnd).pc = s.pc := rfl
@[simp] theorem State.countRnd_stack : (s.countRnd).stack = s.stack := rfl
@[simp] theorem State.countRnd_sp : (s.countRnd).sp = s.sp := rfl
@[simp] theorem State.countRnd_dt : (s.countRnd).dt = s.dt := rfl
@[simp] theorem State.countRnd_st : (s.countRnd).st = s.st := rfl
@[simp] theorem State.countRnd_mem : (s.countRnd).mem = s.mem := rfl
@[simp] theorem State.countRnd_wait : (s.countRnd).wait = s.wait := rfl
@[simp] theorem State.countRnd_waitX : (s.countRnd).waitX = s.waitX := rfl
@[simp] theorem State.countRnd_halt : (s.countRnd).halt = s.halt := rfl
@[simp] theorem State.countRnd_faultCause : (s.countRnd).faultCause = s.faultCause := rfl
@[simp] theorem State.countRnd_faultPc : (s.countRnd).faultPc = s.faultPc := rfl
@[simp] theorem State.countRnd_faultOp : (s.countRnd).faultOp = s.faultOp := rfl
@[simp] theorem State.countRnd_fb : (s.countRnd).fb = s.fb := rfl
@[simp] theorem State.countRnd_keyCur : (s.countRnd).keyCur = s.keyCur := rfl
@[simp] theorem State.countRnd_keyNew : (s.countRnd).keyNew = s.keyNew := rfl
@[simp] theorem State.countRnd_event : (s.countRnd).event = s.event := rfl
@[simp] theorem State.countRnd_clock : (s.countRnd).clock = s.clock := rfl
@[simp] theorem State.countRnd_rndCount : (s.countRnd).rndCount = s.rndCount + 1 := rfl
@[simp] theorem State.countRnd_reg (r : Reg) : (s.countRnd).reg r = s.reg r := rfl

/-! ### dropKey -/

@[simp] theorem State.dropKey_v : (s.dropKey).v = s.v := rfl
@[simp] theorem State.dropKey_index : (s.dropKey).index = s.index := rfl
@[simp] theorem State.dropKey_pc : (s.dropKey).pc = s.pc := rfl
@[simp] theorem State.dropKey_stack : (s.dropKey).stack = s.stack := rfl
@[simp] theorem State.dropKey_sp : (s.dropKey).sp = s.sp := rfl
@[simp] theorem State.dropKey_dt : (s.dropKey).dt = s.dt := rfl
@[simp] theorem State.dropKey_st : (s.dropKey).st = s.st := rfl
@[simp] theorem State.dropKey_mem : (s.dropKey).mem = s.mem := rfl
@[simp] theorem State.dropKey_wait : (s.dropKey).wait = s.wait := rfl
@[simp] theorem State.dropKey_waitX : (s.dropKey).waitX = s.waitX := rfl
@[simp] theorem State.dropKey_halt : (s.dropKey).halt = s.halt := rfl
@[simp] theorem State.dropKey_faultCause : (s.dropKey).faultCause = s.faultCause := rfl
@[simp] theorem State.dropKey_faultPc : (s.dropKey).faultPc = s.faultPc := rfl
@[simp] theorem State.dropKey_faultOp : (s.dropKey).faultOp = s.faultOp := rfl
@[simp] theorem State.dropKey_fb : (s.dropKey).fb = s.fb := rfl
@[simp] theorem State.dropKey_keyCur : (s.dropKey).keyCur = s.keyCur := rfl
@[simp] theorem State.dropKey_keyNew : (s.dropKey).keyNew = none := rfl
@[simp] theorem State.dropKey_event : (s.dropKey).event = s.event := rfl
@[simp] theorem State.dropKey_clock : (s.dropKey).clock = s.clock := rfl
@[simp] theorem State.dropKey_rndCount : (s.dropKey).rndCount = s.rndCount := rfl
@[simp] theorem State.dropKey_reg (r : Reg) : (s.dropKey).reg r = s.reg r := rfl

/-! ### suspend -/

@[simp] theorem State.suspend_v (x : Reg) : (s.suspend x).v = s.v := rfl
@[simp] theorem State.suspend_index (x : Reg) : (s.suspend x).index = s.index := rfl
@[simp] theorem State.suspend_pc (x : Reg) : (s.suspend x).pc = s.pc := rfl
@[simp] theorem State.suspend_stack (x : Reg) : (s.suspend x).stack = s.stack := rfl
@[simp] theorem State.suspend_sp (x : Reg) : (s.suspend x).sp = s.sp := rfl
@[simp] theorem State.suspend_dt (x : Reg) : (s.suspend x).dt = s.dt := rfl
@[simp] theorem State.suspend_st (x : Reg) : (s.suspend x).st = s.st := rfl
@[simp] theorem State.suspend_mem (x : Reg) : (s.suspend x).mem = s.mem := rfl
@[simp] theorem State.suspend_wait (x : Reg) : (s.suspend x).wait = true := rfl
@[simp] theorem State.suspend_waitX (x : Reg) : (s.suspend x).waitX = x := rfl
@[simp] theorem State.suspend_halt (x : Reg) : (s.suspend x).halt = s.halt := rfl
@[simp] theorem State.suspend_faultCause (x : Reg) : (s.suspend x).faultCause = s.faultCause := rfl
@[simp] theorem State.suspend_faultPc (x : Reg) : (s.suspend x).faultPc = s.faultPc := rfl
@[simp] theorem State.suspend_faultOp (x : Reg) : (s.suspend x).faultOp = s.faultOp := rfl
@[simp] theorem State.suspend_fb (x : Reg) : (s.suspend x).fb = s.fb := rfl
@[simp] theorem State.suspend_keyCur (x : Reg) : (s.suspend x).keyCur = s.keyCur := rfl
@[simp] theorem State.suspend_keyNew (x : Reg) : (s.suspend x).keyNew = s.keyNew := rfl
@[simp] theorem State.suspend_event (x : Reg) : (s.suspend x).event = .waiting := rfl
@[simp] theorem State.suspend_clock (x : Reg) : (s.suspend x).clock = s.clock := rfl
@[simp] theorem State.suspend_rndCount (x : Reg) : (s.suspend x).rndCount = s.rndCount := rfl
@[simp] theorem State.suspend_reg (x : Reg) (r : Reg) : (s.suspend x).reg r = s.reg r := rfl

/-! ### stillWaiting -/

@[simp] theorem State.stillWaiting_v : (s.stillWaiting).v = s.v := rfl
@[simp] theorem State.stillWaiting_index : (s.stillWaiting).index = s.index := rfl
@[simp] theorem State.stillWaiting_pc : (s.stillWaiting).pc = s.pc := rfl
@[simp] theorem State.stillWaiting_stack : (s.stillWaiting).stack = s.stack := rfl
@[simp] theorem State.stillWaiting_sp : (s.stillWaiting).sp = s.sp := rfl
@[simp] theorem State.stillWaiting_dt : (s.stillWaiting).dt = s.dt := rfl
@[simp] theorem State.stillWaiting_st : (s.stillWaiting).st = s.st := rfl
@[simp] theorem State.stillWaiting_mem : (s.stillWaiting).mem = s.mem := rfl
@[simp] theorem State.stillWaiting_wait : (s.stillWaiting).wait = s.wait := rfl
@[simp] theorem State.stillWaiting_waitX : (s.stillWaiting).waitX = s.waitX := rfl
@[simp] theorem State.stillWaiting_halt : (s.stillWaiting).halt = s.halt := rfl
@[simp] theorem State.stillWaiting_faultCause : (s.stillWaiting).faultCause = s.faultCause := rfl
@[simp] theorem State.stillWaiting_faultPc : (s.stillWaiting).faultPc = s.faultPc := rfl
@[simp] theorem State.stillWaiting_faultOp : (s.stillWaiting).faultOp = s.faultOp := rfl
@[simp] theorem State.stillWaiting_fb : (s.stillWaiting).fb = s.fb := rfl
@[simp] theorem State.stillWaiting_keyCur : (s.stillWaiting).keyCur = s.keyCur := rfl
@[simp] theorem State.stillWaiting_keyNew : (s.stillWaiting).keyNew = s.keyNew := rfl
@[simp] theorem State.stillWaiting_event : (s.stillWaiting).event = .waiting := rfl
@[simp] theorem State.stillWaiting_clock : (s.stillWaiting).clock = s.clock := rfl
@[simp] theorem State.stillWaiting_rndCount : (s.stillWaiting).rndCount = s.rndCount := rfl
@[simp] theorem State.stillWaiting_reg (r : Reg) : (s.stillWaiting).reg r = s.reg r := rfl

/-! ### resume -/

@[simp] theorem State.resume_v : (s.resume).v = s.v := rfl
@[simp] theorem State.resume_index : (s.resume).index = s.index := rfl
@[simp] theorem State.resume_pc : (s.resume).pc = s.pc + 2#16 := rfl
@[simp] theorem State.resume_stack : (s.resume).stack = s.stack := rfl
@[simp] theorem State.resume_sp : (s.resume).sp = s.sp := rfl
@[simp] theorem State.resume_dt : (s.resume).dt = s.dt := rfl
@[simp] theorem State.resume_st : (s.resume).st = s.st := rfl
@[simp] theorem State.resume_mem : (s.resume).mem = s.mem := rfl
@[simp] theorem State.resume_wait : (s.resume).wait = false := rfl
@[simp] theorem State.resume_waitX : (s.resume).waitX = s.waitX := rfl
@[simp] theorem State.resume_halt : (s.resume).halt = s.halt := rfl
@[simp] theorem State.resume_faultCause : (s.resume).faultCause = s.faultCause := rfl
@[simp] theorem State.resume_faultPc : (s.resume).faultPc = s.faultPc := rfl
@[simp] theorem State.resume_faultOp : (s.resume).faultOp = s.faultOp := rfl
@[simp] theorem State.resume_fb : (s.resume).fb = s.fb := rfl
@[simp] theorem State.resume_keyCur : (s.resume).keyCur = s.keyCur := rfl
@[simp] theorem State.resume_keyNew : (s.resume).keyNew = s.keyNew := rfl
@[simp] theorem State.resume_event : (s.resume).event = .none := rfl
@[simp] theorem State.resume_clock : (s.resume).clock = s.clock := rfl
@[simp] theorem State.resume_rndCount : (s.resume).rndCount = s.rndCount := rfl
@[simp] theorem State.resume_reg (r : Reg) : (s.resume).reg r = s.reg r := rfl

/-! ### unrecognised -/

@[simp] theorem State.unrecognised_v (op : Word) : (s.unrecognised op).v = s.v := rfl
@[simp] theorem State.unrecognised_index (op : Word) : (s.unrecognised op).index = s.index := rfl
@[simp] theorem State.unrecognised_pc (op : Word) : (s.unrecognised op).pc = s.pc + 2#16 := rfl
@[simp] theorem State.unrecognised_stack (op : Word) : (s.unrecognised op).stack = s.stack := rfl
@[simp] theorem State.unrecognised_sp (op : Word) : (s.unrecognised op).sp = s.sp := rfl
@[simp] theorem State.unrecognised_dt (op : Word) : (s.unrecognised op).dt = s.dt := rfl
@[simp] theorem State.unrecognised_st (op : Word) : (s.unrecognised op).st = s.st := rfl
@[simp] theorem State.unrecognised_mem (op : Word) : (s.unrecognised op).mem = s.mem := rfl
@[simp] theorem State.unrecognised_wait (op : Word) : (s.unrecognised op).wait = s.wait := rfl
@[simp] theorem State.unrecognised_waitX (op : Word) : (s.unrecognised op).waitX = s.waitX := rfl
@[simp] theorem State.unrecognised_halt (op : Word) : (s.unrecognised op).halt = s.halt := rfl
@[simp] theorem State.unrecognised_faultCause (op : Word) : (s.unrecognised op).faultCause = s.faultCause := rfl
@[simp] theorem State.unrecognised_faultPc (op : Word) : (s.unrecognised op).faultPc = s.faultPc := rfl
@[simp] theorem State.unrecognised_faultOp (op : Word) : (s.unrecognised op).faultOp = s.faultOp := rfl
@[simp] theorem State.unrecognised_fb (op : Word) : (s.unrecognised op).fb = s.fb := rfl
@[simp] theorem State.unrecognised_keyCur (op : Word) : (s.unrecognised op).keyCur = s.keyCur := rfl
@[simp] theorem State.unrecognised_keyNew (op : Word) : (s.unrecognised op).keyNew = s.keyNew := rfl
@[simp] theorem State.unrecognised_event (op : Word) : (s.unrecognised op).event = .unrecognised op s.pc := rfl
@[simp] theorem State.unrecognised_clock (op : Word) : (s.unrecognised op).clock = s.clock := rfl
@[simp] theorem State.unrecognised_rndCount (op : Word) : (s.unrecognised op).rndCount = s.rndCount := rfl
@[simp] theorem State.unrecognised_reg (op : Word) (r : Reg) : (s.unrecognised op).reg r = s.reg r := rfl

/-! ### haltedStep -/

@[simp] theorem State.haltedStep_v : (s.haltedStep).v = s.v := rfl
@[simp] theorem State.haltedStep_index : (s.haltedStep).index = s.index := rfl
@[simp] theorem State.haltedStep_pc : (s.haltedStep).pc = s.pc := rfl
@[simp] theorem State.haltedStep_stack : (s.haltedStep).stack = s.stack := rfl
@[simp] theorem State.haltedStep_sp : (s.haltedStep).sp = s.sp := rfl
@[simp] theorem State.haltedStep_dt : (s.haltedStep).dt = s.dt := rfl
@[simp] theorem State.haltedStep_st : (s.haltedStep).st = s.st := rfl
@[simp] theorem State.haltedStep_mem : (s.haltedStep).mem = s.mem := rfl
@[simp] theorem State.haltedStep_wait : (s.haltedStep).wait = s.wait := rfl
@[simp] theorem State.haltedStep_waitX : (s.haltedStep).waitX = s.waitX := rfl
@[simp] theorem State.haltedStep_halt : (s.haltedStep).halt = s.halt := rfl
@[simp] theorem State.haltedStep_faultCause : (s.haltedStep).faultCause = s.faultCause := rfl
@[simp] theorem State.haltedStep_faultPc : (s.haltedStep).faultPc = s.faultPc := rfl
@[simp] theorem State.haltedStep_faultOp : (s.haltedStep).faultOp = s.faultOp := rfl
@[simp] theorem State.haltedStep_fb : (s.haltedStep).fb = s.fb := rfl
@[simp] theorem State.haltedStep_keyCur : (s.haltedStep).keyCur = s.keyCur := rfl
@[simp] theorem State.haltedStep_keyNew : (s.haltedStep).keyNew = s.keyNew := rfl
@[simp] theorem State.haltedStep_event : (s.haltedStep).event = .none := rfl
@[simp] theorem State.haltedStep_clock : (s.haltedStep).clock = s.clock := rfl
@[simp] theorem State.haltedStep_rndCount : (s.haltedStep).rndCount = s.rndCount := rfl
@[simp] theorem State.haltedStep_reg (r : Reg) : (s.haltedStep).reg r = s.reg r := rfl

/-! ### tick -/

@[simp] theorem State.tick_v : (s.tick).v = s.v := rfl
@[simp] theorem State.tick_index : (s.tick).index = s.index := rfl
@[simp] theorem State.tick_pc : (s.tick).pc = s.pc := rfl
@[simp] theorem State.tick_stack : (s.tick).stack = s.stack := rfl
@[simp] theorem State.tick_sp : (s.tick).sp = s.sp := rfl
@[simp] theorem State.tick_mem : (s.tick).mem = s.mem := rfl
@[simp] theorem State.tick_wait : (s.tick).wait = s.wait := rfl
@[simp] theorem State.tick_waitX : (s.tick).waitX = s.waitX := rfl
@[simp] theorem State.tick_halt : (s.tick).halt = s.halt := rfl
@[simp] theorem State.tick_faultCause : (s.tick).faultCause = s.faultCause := rfl
@[simp] theorem State.tick_faultPc : (s.tick).faultPc = s.faultPc := rfl
@[simp] theorem State.tick_faultOp : (s.tick).faultOp = s.faultOp := rfl
@[simp] theorem State.tick_fb : (s.tick).fb = s.fb := rfl
@[simp] theorem State.tick_keyCur : (s.tick).keyCur = s.keyCur := rfl
@[simp] theorem State.tick_keyNew : (s.tick).keyNew = s.keyNew := rfl
@[simp] theorem State.tick_event : (s.tick).event = s.event := rfl
@[simp] theorem State.tick_clock : (s.tick).clock = s.clock := rfl
@[simp] theorem State.tick_rndCount : (s.tick).rndCount = s.rndCount := rfl
@[simp] theorem State.tick_reg (r : Reg) : (s.tick).reg r = s.reg r := rfl

/-! ### inputUpdate -/

@[simp] theorem State.inputUpdate_v (cur new : Option Key) : (s.inputUpdate cur new).v = s.v := rfl
@[simp] theorem State.inputUpdate_index (cur new : Option Key) : (s.inputUpdate cur new).index = s.index := rfl
@[simp] theorem State.inputUpdate_pc (cur new : Option Key) : (s.inputUpdate cur new).pc = s.pc := rfl
@[simp] theorem State.inputUpdate_stack (cur new : Option Key) : (s.inputUpdate cur new).stack = s.stack := rfl
@[simp] theorem State.inputUpdate_sp (cur new : Option Key) : (s.inputUpdate cur new).sp = s.sp := rfl
@[simp] theorem State.inputUpdate_dt (cur new : Option Key) : (s.inputUpdate cur new).dt = s.dt := rfl
@[simp] theorem State.inputUpdate_st (cur new : Option Key) : (s.inputUpdate cur new).st = s.st := rfl
@[simp] theorem State.inputUpdate_mem (cur new : Option Key) : (s.inputUpdate cur new).mem = s.mem := rfl
@[simp] theorem State.inputUpdate_wait (cur new : Option Key) : (s.inputUpdate cur new).wait = s.wait := rfl
@[simp] theorem State.inputUpdate_waitX (cur new : Option Key) : (s.inputUpdate cur new).waitX = s.waitX := rfl
@[simp] theorem State.inputUpdate_halt (cur new : Option Key) : (s.inputUpdate cur new).halt = s.halt := rfl
@[simp] theorem State.inputUpdate_faultCause (cur new : Option Key) : (s.inputUpdate cur new).faultCause = s.faultCause := rfl
@[simp] theorem State.inputUpdate_faultPc (cur new : Option Key) : (s.inputUpdate cur new).faultPc = s.faultPc := rfl
@[simp] theorem State.inputUpdate_faultOp (cur new : Option Key) : (s.inputUpdate cur new).faultOp = s.faultOp := rfl
@[simp] theorem State.inputUpdate_fb (cur new : Option Key) : (s.inputUpdate cur new).fb = s.fb := rfl
@[simp] theorem State.inputUpdate_keyCur (cur new : Option Key) : (s.inputUpdate cur new).keyCur = cur := rfl
@[simp] theorem State.inputUpdate_keyNew (cur new : Option Key) : (s.inputUpdate cur new).keyNew = new := rfl
@[simp] theorem State.inputUpdate_event (cur new : Option Key) : (s.inputUpdate cur new).event = s.event := rfl
@[simp] theorem State.inputUpdate_clock (cur new : Option Key) : (s.inputUpdate cur new).clock = s.clock := rfl
@[simp] theorem State.inputUpdate_rndCount (cur new : Option Key) : (s.inputUpdate cur new).rndCount = s.rndCount := rfl
@[simp] theorem State.inputUpdate_reg (cur new : Option Key) (r : Reg) : (s.inputUpdate cur new).reg r = s.reg r := rfl

/-! ### deliver -/

@[simp] theorem State.deliver_v : (s.deliver).v = s.v := rfl
@[simp] theorem State.deliver_index : (s.deliver).index = s.index := rfl
@[simp] theorem State.deliver_pc : (s.deliver).pc = s.pc := rfl
@[simp] theorem State.deliver_stack : (s.deliver).stack = s.stack := rfl
@[simp] theorem State.deliver_sp : (s.deliver).sp = s.sp := rfl
@[simp] theorem State.deliver_mem : (s.deliver).mem = s.mem := rfl
@[simp] theorem State.deliver_wait : (s.deliver).wait = s.wait := rfl
@[simp] theorem State.deliver_waitX : (s.deliver).waitX = s.waitX := rfl
@[simp] theorem State.deliver_halt : (s.deliver).halt = s.halt := rfl
@[simp] theorem State.deliver_faultCause : (s.deliver).faultCause = s.faultCause := rfl
@[simp] theorem State.deliver_faultPc : (s.deliver).faultPc = s.faultPc := rfl
@[simp] theorem State.deliver_faultOp : (s.deliver).faultOp = s.faultOp := rfl
@[simp] theorem State.deliver_fb : (s.deliver).fb = s.fb := rfl
@[simp] theorem State.deliver_event : (s.deliver).event = s.event := rfl
@[simp] theorem State.deliver_clock : (s.deliver).clock = s.clock + 1 := rfl
@[simp] theorem State.deliver_rndCount : (s.deliver).rndCount = s.rndCount := rfl
@[simp] theorem State.deliver_reg (r : Reg) : (s.deliver).reg r = s.reg r := rfl

/-! ### drawSprite -/

@[simp] theorem State.drawSprite_index (x y : Reg) (rows : List Byte) : (s.drawSprite x y rows).index = s.index := rfl
@[simp] theorem State.drawSprite_pc (x y : Reg) (rows : List Byte) : (s.drawSprite x y rows).pc = s.pc := rfl
@[simp] theorem State.drawSprite_stack (x y : Reg) (rows : List Byte) : (s.drawSprite x y rows).stack = s.stack := rfl
@[simp] theorem State.drawSprite_sp (x y : Reg) (rows : List Byte) : (s.drawSprite x y rows).sp = s.sp := rfl
@[simp] theorem State.drawSprite_dt (x y : Reg) (rows : List Byte) : (s.drawSprite x y rows).dt = s.dt := rfl
@[simp] theorem State.drawSprite_st (x y : Reg) (rows : List Byte) : (s.drawSprite x y rows).st = s.st := rfl
@[simp] theorem State.drawSprite_mem (x y : Reg) (rows : List Byte) : (s.drawSprite x y rows).mem = s.mem := rfl
@[simp] theorem State.drawSprite_wait (x y : Reg) (rows : List Byte) : (s.drawSprite x y rows).wait = s.wait := rfl
@[simp] theorem State.drawSprite_waitX (x y : Reg) (rows : List Byte) : (s.drawSprite x y rows).waitX = s.waitX := rfl
@[simp] theorem State.drawSprite_halt (x y : Reg) (rows : List Byte) : (s.drawSprite x y rows).halt = s.halt := rfl
@[simp] theorem State.drawSprite_faultCause (x y : Reg) (rows : List Byte) : (s.drawSprite x y rows).faultCause = s.faultCause := rfl
@[simp] theorem State.drawSprite_faultPc (x y : Reg) (rows : List Byte) : (s.drawSprite x y rows).faultPc = s.faultPc := rfl
@[simp] theorem State.drawSprite_faultOp (x y : Reg) (rows : List Byte) : (s.drawSprite x y rows).faultOp = s.faultOp := rfl
@[simp] theorem State.drawSprite_keyCur (x y : Reg) (rows : List Byte) : (s.drawSprite x y rows).keyCur = s.keyCur := rfl
@[simp] theorem State.drawSprite_keyNew (x y : Reg) (rows : List Byte) : (s.drawSprite x y rows).keyNew = s.keyNew := rfl
@[simp] theorem State.drawSprite_event (x y : Reg) (rows : List Byte) : (s.drawSprite x y rows).event = s.event := rfl
@[simp] theorem State.drawSprite_clock (x y : Reg) (rows : List Byte) : (s.drawSprite x y rows).clock = s.clock := rfl
@[simp] theorem State.drawSprite_rndCount (x y : Reg) (rows : List Byte) : (s.drawSprite x y rows).rndCount = s.rndCount := rfl

end Sys2Proof.Machine
end

