-- ==== Sys2Proof/Laws/Memory.lean ====
section
/-!
SUPPORT. Memory: a read after a write, the canonical form, the bytes an access moves (20_memory.md R53, R57).
-/

namespace Sys2Proof.Machine

@[simp] theorem Memory.read_nil (a : Nat) : Memory.read [] a = unlistedByte a := rfl

theorem Memory.read_cons (k : Nat) (b : Byte) (m : Memory) (a : Nat) :
    Memory.read ((k, b) :: m) a = if k = a then b else Memory.read m a := rfl

/-- Dropping the cells of an address leaves it unlisted. -/
theorem Memory.read_filter_same (m : Memory) (a : Nat) :
    Memory.read (m.filter (·.1 != a)) a = unlistedByte a := by
  induction m with
  | nil => rfl
  | cons c m ih =>
    obtain ⟨k, b⟩ := c
    by_cases h : k = a <;> simp [h, Memory.read_cons, ih]

theorem Memory.read_filter_ne (m : Memory) {a a' : Nat} (h : a' ≠ a) :
    Memory.read (m.filter (·.1 != a)) a' = Memory.read m a' := by
  induction m with
  | nil => rfl
  | cons c m ih =>
    obtain ⟨k, b⟩ := c
    by_cases hk : k = a
    · simp [hk, Memory.read_cons, ih, Ne.symm h]
    · simp [hk, Memory.read_cons, ih]

theorem Memory.read_place_ne (m : Memory) {a a' : Nat} (b : Byte) (h : a' ≠ a) :
    Memory.read (Memory.place a b m) a' = Memory.read m a' := by
  induction m with
  | nil => simp [Memory.place, Memory.read_cons, Ne.symm h]
  | cons c m ih =>
    obtain ⟨k, b'⟩ := c
    simp only [Memory.place]
    split <;> simp [Memory.read_cons, ih, Ne.symm h]

theorem Memory.read_place_same (m : Memory) (a : Nat) (b : Byte) (h : ∀ c ∈ m, c.1 ≠ a) :
    Memory.read (Memory.place a b m) a = b := by
  induction m with
  | nil => simp [Memory.place, Memory.read_cons]
  | cons c m ih =>
    obtain ⟨k, b'⟩ := c
    have hk : k ≠ a := h (k, b') (by simp)
    simp only [Memory.place]
    split
    · simp [Memory.read_cons]
    · simpa [Memory.read_cons, hk] using ih fun c hc => h c (List.mem_cons_of_mem _ hc)

/-- A read after a write to the same address gives the byte written (R57). -/
@[simp] theorem Memory.read_write_same (m : Memory) (a : Nat) (b : Byte) : (m.write a b).read a = b := by
  unfold Memory.write
  split
  · next h => rw [Memory.read_filter_same, h]
  · exact Memory.read_place_same _ _ _ fun c hc => by simpa using (List.mem_filter.1 hc).2

/-- A write leaves every other address alone. -/
theorem Memory.read_write_ne (m : Memory) {a a' : Nat} (b : Byte) (h : a' ≠ a) :
    (m.write a b).read a' = m.read a' := by
  unfold Memory.write
  split
  · exact Memory.read_filter_ne m h
  · rw [Memory.read_place_ne _ _ h, Memory.read_filter_ne m h]

/-- Bytes written upward from an address leave every address outside them alone. -/
theorem Memory.read_writeBytes_outside (bs : List Byte) (m : Memory) (a a' : Nat)
    (h : ¬ (a ≤ a' ∧ a' < a + bs.length)) : (m.writeBytes a bs).read a' = m.read a' := by
  induction bs generalizing m a with
  | nil => rfl
  | cons b bs ih =>
    simp only [List.length_cons] at h
    rw [Memory.writeBytes, ih _ _ (by omega), Memory.read_write_ne _ _ (by omega)]

/-- The k-th of the bytes written is what its address reads as. -/
theorem Memory.read_writeBytes_at (bs : List Byte) (m : Memory) (a k : Nat) (b : Byte) (h : bs[k]? = some b) :
    (m.writeBytes a bs).read (a + k) = b := by
  induction bs generalizing m a k with
  | nil => simp at h
  | cons c bs ih =>
    rw [Memory.writeBytes]
    cases k with
    | zero =>
      rw [Memory.read_writeBytes_outside _ _ _ _ (by omega)]
      simpa using h
    | succ k =>
      have := ih (m.write a c) (a + 1) k (by simpa using h)
      rwa [show a + 1 + k = a + (k + 1) by omega] at this

/-! ### The canonical form -/

theorem Memory.mem_place (m : Memory) (a : Nat) (b : Byte) (c : Host.Cell) :
    c ∈ Memory.place a b m ↔ c = (a, b) ∨ c ∈ m := by
  induction m with
  | nil => simp [Memory.place]
  | cons d m ih =>
    obtain ⟨k, b'⟩ := d
    simp only [Memory.place]
    split
    · simp
    · simp [ih, or_left_comm]

theorem Memory.place_rising (m : Memory) (a : Nat) (b : Byte) (hne : ∀ c ∈ m, c.1 ≠ a)
    (h : m.Pairwise fun c d => c.1 < d.1) : (Memory.place a b m).Pairwise fun c d => c.1 < d.1 := by
  induction m with
  | nil => simp [Memory.place]
  | cons d m ih =>
    obtain ⟨k, b'⟩ := d
    rw [List.pairwise_cons] at h
    have hk : k ≠ a := hne (k, b') (by simp)
    simp only [Memory.place]
    split
    · next hlt =>
      refine List.pairwise_cons.2 ⟨fun c hc => ?_, List.pairwise_cons.2 h⟩
      rcases List.mem_cons.1 hc with rfl | hc
      · exact hlt
      · exact Nat.lt_trans hlt (h.1 c hc)
    · refine List.pairwise_cons.2 ⟨fun c hc => ?_, ih (fun c hc => hne c (List.mem_cons_of_mem _ hc)) h.2⟩
      rcases (Memory.mem_place m a b c).1 hc with rfl | hc
      · simp only
        omega
      · exact h.1 c hc

/-- A write to a valid address keeps the canonical form. -/
theorem Memory.write_wf {m : Memory} (h : m.wf) {a : Nat} (b : Byte) (ha : a < Config.memSize) :
    (m.write a b).wf := by
  have hsub : ∀ c ∈ m.filter (·.1 != a), c.1 < Config.memSize ∧ c.2 ≠ unlistedByte c.1 :=
    fun c hc => h.2 c (List.mem_filter.1 hc).1
  have hpw := h.1.sublist (List.filter_sublist (p := (·.1 != a)) (l := m))
  unfold Memory.write
  split
  · exact ⟨hpw, hsub⟩
  · next hb =>
    refine ⟨Memory.place_rising _ _ _ (fun c hc => by simpa using (List.mem_filter.1 hc).2) hpw, fun c hc => ?_⟩
    rcases (Memory.mem_place _ a b c).1 hc with rfl | hc
    · exact ⟨ha, hb⟩
    · exact hsub c hc

/-- Bytes written inside memory keep the canonical form. -/
theorem Memory.writeBytes_wf (bs : List Byte) {m : Memory} (h : m.wf) {a : Nat}
    (ha : a + bs.length ≤ Config.memSize) : (m.writeBytes a bs).wf := by
  induction bs generalizing m a with
  | nil => exact h
  | cons b bs ih =>
    simp only [List.length_cons] at ha
    exact ih (Memory.write_wf h b (by omega)) (by omega)

/-- Memory after reset has the canonical form. -/
theorem Memory.reset_wf : State.reset.mem.wf := by decide

theorem Memory.read_below (m : Memory) (a : Nat) (h : ∀ c ∈ m, a < c.1) : m.read a = unlistedByte a := by
  induction m with
  | nil => rfl
  | cons c m ih =>
    obtain ⟨k, b⟩ := c
    have hk : a < k := h (k, b) (by simp)
    rw [Memory.read_cons, if_neg (by omega)]
    exact ih fun c hc => h c (List.mem_cons_of_mem _ hc)

/-- Two canonical memories that read the same everywhere are the same list. -/
theorem Memory.wf_ext {m n : Memory} (hm : m.wf) (hn : n.wf) (h : ∀ a, m.read a = n.read a) : m = n := by
  induction m generalizing n with
  | nil =>
    cases n with
    | nil => rfl
    | cons c n =>
      obtain ⟨k, b⟩ := c
      have hb := (hn.2 (k, b) (by simp)).2
      have := h k
      simp [Memory.read_cons] at this
      exact absurd this.symm hb
  | cons c m ih =>
    obtain ⟨k, b⟩ := c
    cases n with
    | nil =>
      have hb := (hm.2 (k, b) (by simp)).2
      have := h k
      simp [Memory.read_cons] at this
      exact absurd this hb
    | cons d n =>
      obtain ⟨l, e⟩ := d
      have hm1 := List.pairwise_cons.1 hm.1
      have hn1 := List.pairwise_cons.1 hn.1
      have hb := (hm.2 (k, b) (by simp)).2
      have he := (hn.2 (l, e) (by simp)).2
      have hkl : k = l := by
        rcases Nat.lt_trichotomy k l with hlt | heq | hlt
        · have hk := h k
          rw [Memory.read_below ((l, e) :: n) k, Memory.read_cons, if_pos rfl] at hk
          · exact absurd hk hb
          · intro c hc
            rcases List.mem_cons.1 hc with rfl | hc
            · exact hlt
            · exact Nat.lt_trans hlt (hn1.1 c hc)
        · exact heq
        · have hl := h l
          rw [Memory.read_below ((k, b) :: m) l, Memory.read_cons, if_pos rfl] at hl
          · exact absurd hl.symm he
          · intro c hc
            rcases List.mem_cons.1 hc with rfl | hc
            · exact hlt
            · exact Nat.lt_trans hlt (hm1.1 c hc)
      subst hkl
      have hbe : b = e := by simpa [Memory.read_cons] using h k
      subst hbe
      congr 1
      refine ih ⟨hm1.2, fun c hc => hm.2 c (List.mem_cons_of_mem _ hc)⟩
        ⟨hn1.2, fun c hc => hn.2 c (List.mem_cons_of_mem _ hc)⟩ fun a => ?_
      by_cases ha : k = a
      · subst ha
        rw [Memory.read_below m k hm1.1, Memory.read_below n k hn1.1]
      · simpa [Memory.read_cons, ha] using h a

/-! ### The access primitives (R53) -/

@[simp] theorem inRange_iff (addr n : Nat) : inRange addr n = true ↔ addr + n ≤ 4096 :=
  decide_eq_true_iff

theorem State.load_eq_some {s : State} {addr n : Nat} (h : addr + n ≤ 4096) :
    s.load addr n = some ((List.range n).map fun k => s.mem.read (addr + k)) := by
  simp [State.load, h]

theorem State.load_eq_none {s : State} {addr n : Nat} (h : 4096 < addr + n) : s.load addr n = none := by
  simp [State.load, h]

theorem State.store_eq_some {s : State} {addr : Nat} {bs : List Byte} (h : addr + bs.length ≤ 4096) :
    s.store addr bs = some (s.setMem (s.mem.writeBytes addr bs)) := by
  simp [State.store, h]

theorem State.store_eq_none {s : State} {addr : Nat} {bs : List Byte} (h : 4096 < addr + bs.length) :
    s.store addr bs = none := by
  simp [State.store, h]

/-- What a store that answers has done. -/
theorem State.store_cases {s t : State} {addr : Nat} {bs : List Byte} (h : s.store addr bs = some t) :
    addr + bs.length ≤ 4096 ∧ t = s.setMem (s.mem.writeBytes addr bs) := by
  unfold State.store at h
  split at h
  · next hr => exact ⟨(inRange_iff _ _).1 hr, by simpa using h.symm⟩
  · simp at h

end Sys2Proof.Machine
end

