-- ==== Sys2Proof/Laws/Ops.lean ====
section
/-!
SUPPORT. What each shared operation can do, said once: registers, results with flags, the stack, the fetch, the events
between Steps.
-/

namespace Sys2Proof.Machine

/-! ### Registers -/

theorem State.reg_setReg (s : State) (x : Reg) (b : Byte) (r : Reg) :
    (s.setReg x b).reg r = if r = x then b else s.reg r := by
  have h : x.toNat = r.toNat ↔ r = x := by
    rw [eq_comm, BitVec.toNat_inj]
  simp only [State.reg, State.setReg, Vector.getElem_set, h]

@[simp] theorem State.reg_setReg_same (s : State) (x : Reg) (b : Byte) : (s.setReg x b).reg x = b := by
  simp [State.reg_setReg]

theorem State.reg_setReg_ne (s : State) {x r : Reg} (b : Byte) (h : r ≠ x) : (s.setReg x b).reg r = s.reg r := by
  simp [State.reg_setReg, h]

theorem getElem_loadRegs (bs : List Byte) (v : Vector Byte 16) (k j : Nat) (hj : j < 16) :
    (loadRegs v k bs)[j] = if k ≤ j then (bs[j - k]?).getD v[j] else v[j] := by
  induction bs generalizing v k with
  | nil => simp [loadRegs]
  | cons b bs ih =>
    unfold loadRegs
    split
    · next h =>
      rw [ih]
      rcases Nat.lt_trichotomy k j with hlt | rfl | hlt
      · have h1 : j - k = j - (k + 1) + 1 := by omega
        simp [h1, show k + 1 ≤ j by omega, show k ≤ j by omega, Vector.getElem_set_ne _ _ (show k ≠ j by omega)]
      · simp
      · simp [show ¬ k + 1 ≤ j by omega, show ¬ k ≤ j by omega, Vector.getElem_set_ne _ _ (show k ≠ j by omega)]
    · next h => simp [show ¬ k ≤ j by omega]

/-- Registers loaded from a list: register k gets byte k, as far as the list goes. -/
theorem State.reg_setRegs (s : State) (bs : List Byte) (r : Reg) :
    (s.setRegs bs).reg r = (bs[r.toNat]?).getD (s.reg r) := by
  simp [State.reg, State.setRegs, getElem_loadRegs]

/-- The flag is what VF holds after, whatever X is (R125). -/
@[simp] theorem State.reg_setResultFlag_vf (s : State) (x : Reg) (b : Byte) (f : Bool) :
    (s.setResultFlag x b f).reg Reg.vf = flagByte f := by
  simp [State.setResultFlag]

theorem State.reg_setResultFlag_x (s : State) {x : Reg} (b : Byte) (f : Bool) (h : x ≠ Reg.vf) :
    (s.setResultFlag x b f).reg x = b := by
  simp [State.setResultFlag, State.reg_setReg_ne _ _ h]

theorem State.reg_setResultFlag_ne (s : State) {x r : Reg} (b : Byte) (f : Bool) (h : r ≠ x) (hv : r ≠ Reg.vf) :
    (s.setResultFlag x b f).reg r = s.reg r := by
  simp [State.setResultFlag, State.reg_setReg_ne _ _ h, State.reg_setReg_ne _ _ hv]

theorem flagByte_cases (f : Bool) : flagByte f = 0#8 ∨ flagByte f = 1#8 := by cases f <;> simp [flagByte]

/-! ### The stack (R25) -/

/-- A push that answers: SP was below 16, the entry at SP is the word, the others stay. -/
theorem State.push_cases {s t : State} {w : Word} (h : s.push w = some t) :
    ∃ hs : s.sp.val < 16, t = { s with stack := s.stack.set s.sp.val w hs, sp := ⟨s.sp.val + 1, by omega⟩ } := by
  unfold State.push at h
  split at h
  · next hs => exact ⟨hs, by simpa using h.symm⟩
  · simp at h

theorem State.push_eq_none {s : State} {w : Word} (h : s.sp.val = 16) : s.push w = none := by
  simp [State.push, h]

theorem State.push_isSome {s : State} (w : Word) (h : s.sp.val < 16) : ∃ t, s.push w = some t := by
  simp [State.push, h]

/-- A pop that answers: SP was above 0, the answer is the top entry, the entries stay. -/
theorem State.pop_cases {s t : State} {w : Word} (h : s.pop = some (w, t)) :
    0 < s.sp.val ∧ w = s.entry (s.sp.val - 1) ∧ t.sp.val = s.sp.val - 1 ∧ t = { s with sp := t.sp } := by
  unfold State.pop at h
  split at h
  · next hs =>
    simp only [Option.some.injEq, Prod.mk.injEq] at h
    obtain ⟨rfl, rfl⟩ := h
    refine ⟨hs, ?_, rfl, rfl⟩
    have : s.sp.val - 1 < 16 := by omega
    simp [State.entry, this]
  · simp at h

theorem State.pop_eq_none {s : State} (h : s.sp.val = 0) : s.pop = none := by
  simp [State.pop, h]

theorem State.pop_isSome {s : State} (h : 0 < s.sp.val) : ∃ w t, s.pop = some (w, t) := by
  simp [State.pop, h]

/-! ### The fetch (R91) -/

theorem State.fetch_eq_some {s : State} (h : s.pc.toNat ≤ 0xFFE) :
    s.fetch = some (wordOfBytes (s.mem.read s.pc.toNat) (s.mem.read (s.pc.toNat + 1))) := by
  simp [State.fetch, State.load_eq_some (s := s) (addr := s.pc.toNat) (n := 2) (by omega), List.range,
    List.range.loop]

theorem State.fetch_eq_none {s : State} (h : 0xFFE < s.pc.toNat) : s.fetch = none := by
  simp [State.fetch, State.load_eq_none (s := s) (addr := s.pc.toNat) (n := 2) (by omega)]

theorem State.pc_le_of_fetch {s : State} {op : Word} (h : s.fetch = some op) : s.pc.toNat ≤ 0xFFE := by
  by_contra hn
  rw [State.fetch_eq_none (by omega)] at h
  cases h

/-- The fetch depends on PC and memory alone. -/
theorem State.fetch_congr {s t : State} (hp : t.pc = s.pc) (hm : t.mem = s.mem) : t.fetch = s.fetch := by
  simp [State.fetch, State.load, hp, hm]

@[simp] theorem State.deliver_fetch (s : State) : s.deliver.fetch = s.fetch := State.fetch_congr rfl rfl

@[simp] theorem State.raise_fetch (s : State) (c : Cause) (op : Word) : (s.raise c op).fetch = s.fetch :=
  State.fetch_congr rfl rfl

/-! ### Inputs (R131, R160) -/

/-- The sample is the free byte at the model's counter, which advances. -/
@[simp] theorem State.rand8_eq (s : State) : s.rand8 = (Config.rnd s.rndCount, s.countRnd) := rfl

/-- The consumed key is KEY_NEW, which becomes none. -/
@[simp] theorem State.keyConsume_eq (s : State) : s.keyConsume = (s.keyNew, s.dropKey) := rfl

theorem zextKey_toNat (k : Key) : (zextKey k).toNat = k.toNat := by
  have := k.isLt
  simp only [zextKey, BitVec.toNat_setWidth]
  omega

/-! ### Events between Steps (R6, R174) -/

/-- Counting down never raises a timer. -/
theorem countDown_le (t : Byte) (n : Nat) : (countDown t n).toNat ≤ t.toNat := by
  have := t.isLt
  unfold countDown
  split
  · simp
  · simp only [BitVec.toNat_ofNat]
    omega

theorem countDown_toNat (t : Byte) (n : Nat) : (countDown t n).toNat = t.toNat - n := by
  have := t.isLt
  unfold countDown
  split
  · next h => simp [h]
  · simp only [BitVec.toNat_ofNat]
    omega

/-- One Tick is one unit of the countdown. -/
theorem State.tick_eq (s : State) : s.tick = { s with dt := countDown s.dt 1, st := countDown s.st 1 } := by
  have key : ∀ t : Byte, (if t ≠ 0#8 then t - 1#8 else t) = countDown t 1 := by decide
  simp only [State.tick, key]

/-- Countdowns add up. -/
theorem countDown_countDown (t : Byte) (m n : Nat) : countDown (countDown t m) n = countDown t (n + m) := by
  apply BitVec.eq_of_toNat_eq
  simp only [countDown_toNat]
  omega

end Sys2Proof.Machine
end

