-- ==== Sys2Proof/Laws/Canvas.lean ====
section
/-!
SUPPORT. Drawing, pixel by pixel: each pixel is touched by at most one sprite bit, so a draw exclusive-ors the plane
with the sprite and collides where both are on (44_display.md R152).
-/

namespace Sys2Proof.Machine

theorem Plane.get_put (p : Plane) {x y : Nat} (b : Bool) (hx : x < 64) (hy : y < 32) (px py : Nat) :
    (p.put x y b).get px py = if px = x ∧ py = y then b else p.get px py := by
  unfold Plane.put
  rw [dif_pos ⟨hx, hy⟩]
  unfold Plane.get
  by_cases hp : px < 64 ∧ py < 32
  · rw [dif_pos hp, dif_pos hp]
    simp only [Vector.getElem_set]
    by_cases hyy : y = py
    · subst hyy
      by_cases hxx : x = px
      · subst hxx
        simp
      · simp [hxx, Ne.symm hxx]
    · simp [hyy, Ne.symm hyy]
  · rw [dif_neg hp, dif_neg hp, if_neg]
    rintro ⟨rfl, rfl⟩
    exact hp ⟨hx, hy⟩

@[simp] theorem Plane.get_clear (x y : Nat) : Plane.clear.get x y = false := by
  unfold Plane.get Plane.clear
  split
  · simp
  · rfl

/-- Two planes with the same pixels are the same. -/
theorem Plane.ext_get {p q : Plane} (h : ∀ x y, x < 64 → y < 32 → p.get x y = q.get x y) : p = q := by
  refine Vector.ext fun y hy => Vector.ext fun x hx => ?_
  have := h x y hx hy
  simpa [Plane.get, hx, hy] using this

/-- One sprite bit: the pixel it falls on is exclusive-ored, the others stay. -/
theorem Canvas.get_drawBit (c : Canvas) (x y : Nat) (bit : Bool) {px py : Nat} (hx : px < 64) (hy : py < 32) :
    (c.drawBit x y bit).fb.get px py = (c.fb.get px py ^^ (bit && decide (px = x ∧ py = y))) := by
  unfold Canvas.drawBit
  split
  · next h =>
    obtain ⟨hb, h1, h2⟩ := h
    rw [Plane.get_put _ _ (by omega) (by omega)]
    by_cases hp : px = x ∧ py = y
    · obtain ⟨rfl, rfl⟩ := hp
      simp [hb]
    · simp [hp]
  · next h =>
    by_cases hp : px = x ∧ py = y
    · have : bit = false := by
        by_contra hb
        exact h ⟨by simpa using hb, by omega, by omega⟩
      simp [this]
    · simp [hp]

/-- One sprite bit: it collides when it is set and falls on a pixel that is on. -/
theorem Canvas.hit_drawBit (c : Canvas) (x y : Nat) (bit : Bool) :
    (c.drawBit x y bit).hit = true ↔
      c.hit = true ∨ (bit = true ∧ x < 64 ∧ y < 32 ∧ c.fb.get x y = true) := by
  unfold Canvas.drawBit
  split
  · next h =>
    obtain ⟨hb, h1, h2⟩ := h
    simp [hb, show x < 64 by omega, show y < 32 by omega]
  · next h =>
    constructor
    · exact Or.inl
    · rintro (h' | ⟨hb, h1, h2, -⟩)
      · exact h'
      · exact absurd ⟨hb, by omega, by omega⟩ h

/-- The bit of a row at column px, for a row drawn from column ox, among its last k bits. -/
def rowBit (row : Byte) (ox k px : Nat) : Bool :=
  decide (ox + (8 - k) ≤ px ∧ px < ox + 8) && row.getLsbD (7 - (px - ox))

theorem rowBit_outside (row : Byte) {ox k px : Nat} (h : ¬ (ox + (8 - k) ≤ px ∧ px < ox + 8)) :
    rowBit row ox k px = false := by
  rw [rowBit, decide_eq_false h, Bool.false_and]

theorem rowBit_inside (row : Byte) {ox k px : Nat} (h : ox + (8 - k) ≤ px ∧ px < ox + 8) :
    rowBit row ox k px = row.getLsbD (7 - (px - ox)) := by
  rw [rowBit, decide_eq_true h, Bool.true_and]

theorem rowBit_succ (row : Byte) (ox px : Nat) {k : Nat} (hk : k < 8) :
    rowBit row ox (k + 1) px = ((row.getLsbD k && decide (px = ox + (7 - k))) || rowBit row ox k px) := by
  by_cases h : px = ox + (7 - k)
  · rw [rowBit_inside row (k := k + 1) (by omega), rowBit_outside row (k := k) (by omega),
      show 7 - (px - ox) = k by omega, decide_eq_true h, Bool.and_true, Bool.or_false]
  · rw [decide_eq_false h, Bool.and_false, Bool.false_or]
    by_cases hi : ox + (8 - k) ≤ px ∧ px < ox + 8
    · rw [rowBit_inside row hi, rowBit_inside row (by omega)]
    · rw [rowBit_outside row hi, rowBit_outside row (by omega)]

/-- A row: its pixels are exclusive-ored with its bits. -/
theorem Canvas.get_drawBits (row : Byte) (ox y k : Nat) (hk : k ≤ 8) (c : Canvas) {px py : Nat} (hx : px < 64)
    (hy : py < 32) :
    (c.drawBits row ox y k).fb.get px py = (c.fb.get px py ^^ (decide (py = y) && rowBit row ox k px)) := by
  induction k generalizing c with
  | zero =>
    simp [Canvas.drawBits, rowBit_outside row (ox := ox) (k := 0) (px := px) (by omega)]
  | succ k ih =>
    rw [Canvas.drawBits, ih (by omega), Canvas.get_drawBit _ _ _ _ hx hy, rowBit_succ _ _ _ (by omega)]
    by_cases hp : px = ox + (7 - k)
    · rw [rowBit_outside row (ox := ox) (k := k) (px := px) (by omega)]
      simp [hp, Bool.and_comm]
    · simp [hp]

/-- A row collides when one of its bits is set on a pixel that is on. -/
theorem Canvas.hit_drawBits (row : Byte) (ox y k : Nat) (hk : k ≤ 8) (c : Canvas) :
    (c.drawBits row ox y k).hit = true ↔
      c.hit = true ∨ ∃ px, px < 64 ∧ y < 32 ∧ rowBit row ox k px = true ∧ c.fb.get px y = true := by
  induction k generalizing c with
  | zero =>
    have : ∀ px, rowBit row ox 0 px = false := fun px => rowBit_outside row (by omega)
    simp [Canvas.drawBits, this]
  | succ k ih =>
    rw [Canvas.drawBits, ih (by omega), Canvas.hit_drawBit]
    have hno : rowBit row ox k (ox + (7 - k)) = false := rowBit_outside row (by omega)
    constructor
    · rintro ((h | ⟨hb, h1, h2, hg⟩) | ⟨px, h1, h2, hb, hg⟩)
      · exact Or.inl h
      · exact Or.inr ⟨_, h1, h2, by simp [rowBit_succ _ _ _ (show k < 8 by omega), hb], hg⟩
      · refine Or.inr ⟨px, h1, h2, by simp [rowBit_succ _ _ _ (show k < 8 by omega), hb], ?_⟩
        rw [Canvas.get_drawBit _ _ _ _ h1 h2] at hg
        have : px ≠ ox + (7 - k) := by
          rintro rfl
          rw [hno] at hb
          cases hb
        simpa [this] using hg
    · rintro (h | ⟨px, h1, h2, hb, hg⟩)
      · exact Or.inl (Or.inl h)
      · rw [rowBit_succ _ _ _ (by omega)] at hb
        by_cases hp : px = ox + (7 - k)
        · subst hp
          rw [hno] at hb
          exact Or.inl (Or.inr ⟨by simpa using hb, h1, h2, hg⟩)
        · refine Or.inr ⟨px, h1, h2, by simpa [hp] using hb, ?_⟩
          rw [Canvas.get_drawBit _ _ _ _ h1 h2]
          simpa [hp] using hg

/-- The sprite bit on pixel (px, py), for rows drawn with origin (ox, oy). -/
def rowsBit (rows : List Byte) (ox oy px py : Nat) : Bool :=
  decide (oy ≤ py ∧ py < oy + rows.length) && rowBit (rows.getD (py - oy) 0#8) ox 8 px

theorem rowsBit_outside {rows : List Byte} {ox oy px py : Nat} (h : ¬ (oy ≤ py ∧ py < oy + rows.length)) :
    rowsBit rows ox oy px py = false := by
  rw [rowsBit, decide_eq_false h, Bool.false_and]

theorem rowsBit_inside {rows : List Byte} {ox oy px py : Nat} (h : oy ≤ py ∧ py < oy + rows.length) :
    rowsBit rows ox oy px py = rowBit (rows.getD (py - oy) 0#8) ox 8 px := by
  rw [rowsBit, decide_eq_true h, Bool.true_and]

theorem rowsBit_cons (row : Byte) (rows : List Byte) (ox oy px py : Nat) :
    rowsBit (row :: rows) ox oy px py =
      ((decide (py = oy) && rowBit row ox 8 px) || rowsBit rows ox (oy + 1) px py) := by
  by_cases h : py = oy
  · rw [rowsBit_inside (by simp; omega), rowsBit_outside (oy := oy + 1) (by omega)]
    simp [h]
  · rw [decide_eq_false h, Bool.false_and, Bool.false_or]
    by_cases hi : oy + 1 ≤ py ∧ py < oy + 1 + rows.length
    · rw [rowsBit_inside hi, rowsBit_inside (by simp; omega), show py - oy = py - (oy + 1) + 1 by omega]
      simp
    · rw [rowsBit_outside hi, rowsBit_outside (by simp; omega)]

/-- A sprite: its pixels are exclusive-ored with its bits. -/
theorem Canvas.get_drawRows (ox : Nat) (rows : List Byte) (oy : Nat) (c : Canvas) {px py : Nat} (hx : px < 64)
    (hy : py < 32) :
    (c.drawRows ox oy rows).fb.get px py = (c.fb.get px py ^^ rowsBit rows ox oy px py) := by
  induction rows generalizing c oy with
  | nil =>
    simp [Canvas.drawRows, rowsBit_outside (rows := []) (ox := ox) (oy := oy) (px := px) (py := py) (by simp)]
  | cons row rows ih =>
    rw [Canvas.drawRows, ih, Canvas.get_drawBits _ _ _ _ (Nat.le_refl 8) _ hx hy, rowsBit_cons]
    by_cases hp : py = oy
    · rw [rowsBit_outside (oy := oy + 1) (by omega)]
      simp
    · simp [hp]

/-- A sprite collides when one of its bits is set on a pixel that is on. -/
theorem Canvas.hit_drawRows (ox : Nat) (rows : List Byte) (oy : Nat) (c : Canvas) :
    (c.drawRows ox oy rows).hit = true ↔
      c.hit = true ∨ ∃ px py, px < 64 ∧ py < 32 ∧ rowsBit rows ox oy px py = true ∧ c.fb.get px py = true := by
  induction rows generalizing c oy with
  | nil =>
    have : ∀ px py, rowsBit [] ox oy px py = false := fun px py => rowsBit_outside (by simp)
    simp [Canvas.drawRows, this]
  | cons row rows ih =>
    rw [Canvas.drawRows, ih, Canvas.hit_drawBits _ _ _ _ (Nat.le_refl 8)]
    have hno : ∀ px, rowsBit rows ox (oy + 1) px oy = false := fun px => rowsBit_outside (by omega)
    constructor
    · rintro ((h | ⟨px, h1, h2, hb, hg⟩) | ⟨px, py, h1, h2, hb, hg⟩)
      · exact Or.inl h
      · exact Or.inr ⟨px, oy, h1, h2, by simp [rowsBit_cons, hb], hg⟩
      · refine Or.inr ⟨px, py, h1, h2, by simp [rowsBit_cons, hb], ?_⟩
        have : py ≠ oy := by
          rintro rfl
          rw [hno] at hb
          cases hb
        simpa [Canvas.get_drawBits _ _ _ _ (Nat.le_refl 8) _ h1 h2, this] using hg
    · rintro (h | ⟨px, py, h1, h2, hb, hg⟩)
      · exact Or.inl (Or.inl h)
      · rw [rowsBit_cons] at hb
        by_cases hp : py = oy
        · subst hp
          rw [hno] at hb
          exact Or.inl (Or.inr ⟨px, h1, h2, by simpa using hb, hg⟩)
        · refine Or.inr ⟨px, py, h1, h2, by simpa [hp] using hb, ?_⟩
          simpa [Canvas.get_drawBits _ _ _ _ (Nat.le_refl 8) _ h1 h2, hp] using hg

end Sys2Proof.Machine
end

