-- ==== Sys2Proof/Laws/Decode.lean ====
section
/-!
SUPPORT. The opcode map: fields of an encoded word, fixed bits of an encoded word, and that the rows are disjoint, so
that the decoder answers whichever row a word selects (30_encoding.md R71, R72, R74).
-/

namespace Sys2Proof

/-! ### Fields of a word laid out by R72 -/

theorem extract_mid {w v u : Nat} (a : BitVec w) (b : BitVec v) (c : BitVec u) :
    BitVec.extractLsb' u v (a ++ b ++ c) = b := by
  ext i hi
  simp [BitVec.getLsbD_append, hi]

theorem extract_second {w v u r : Nat} (a : BitVec w) (b : BitVec v) (c : BitVec u) (d : BitVec r) :
    BitVec.extractLsb' (r + u) v (a ++ b ++ c ++ d) = b := by
  ext i hi
  simp only [BitVec.getElem_extractLsb', BitVec.getLsbD_append]
  have h1 : ¬ (r + u + i < r) := by omega
  have h2 : ¬ (r + u + i - r < u) := by omega
  have h3 : r + u + i - r - u = i := by omega
  simp [h1, h2, h3, hi]

theorem extract_first {w v : Nat} (a : BitVec w) (b : BitVec v) : BitVec.extractLsb' v w (a ++ b) = a := by
  ext i hi
  simp [BitVec.getLsbD_append, hi]

theorem extract_first_of_four {w v u r : Nat} (a : BitVec w) (b : BitVec v) (c : BitVec u) (d : BitVec r) :
    BitVec.extractLsb' (r + u + v) w (a ++ b ++ c ++ d) = a := by
  ext i hi
  simp only [BitVec.getElem_extractLsb', BitVec.getLsbD_append]
  have h1 : ¬ (r + u + v + i < r) := by omega
  have h2 : ¬ (r + u + v + i - r < u) := by omega
  have h3 : ¬ (r + u + v + i - r - u < v) := by omega
  have h4 : r + u + v + i - r - u - v = i := by omega
  simp [h1, h2, h3, h4, hi]

theorem extract_first_of_three {w v u : Nat} (a : BitVec w) (b : BitVec v) (c : BitVec u) :
    BitVec.extractLsb' (u + v) w (a ++ b ++ c) = a := by
  ext i hi
  simp only [BitVec.getElem_extractLsb', BitVec.getLsbD_append]
  have h1 : ¬ (u + v + i < u) := by omega
  have h2 : ¬ (u + v + i - u < v) := by omega
  have h3 : u + v + i - u - v = i := by omega
  simp [h1, h2, h3, hi]

@[simp] theorem type_of_nnn (t : BitVec 4) (nnn : BitVec 12) : (Fields.ofWord (t ++ nnn)).type = t :=
  extract_first t nnn

@[simp] theorem type_of_xnn (t x : BitVec 4) (nn : BitVec 8) : (Fields.ofWord (t ++ x ++ nn)).type = t :=
  extract_first_of_three t x nn

@[simp] theorem type_of_xyn (t x y n : BitVec 4) : (Fields.ofWord (t ++ x ++ y ++ n)).type = t :=
  extract_first_of_four t x y n

@[simp] theorem nnn_of_nnn (t : BitVec 4) (nnn : BitVec 12) : (Fields.ofWord (t ++ nnn)).nnn = nnn :=
  BitVec.extractLsb'_append_eq_right

@[simp] theorem x_of_xnn (t x : BitVec 4) (nn : BitVec 8) : (Fields.ofWord (t ++ x ++ nn)).x = x :=
  extract_mid t x nn

@[simp] theorem nn_of_xnn (t x : BitVec 4) (nn : BitVec 8) : (Fields.ofWord (t ++ x ++ nn)).nn = nn :=
  BitVec.extractLsb'_append_eq_right

@[simp] theorem x_of_xyn (t x y n : BitVec 4) : (Fields.ofWord (t ++ x ++ y ++ n)).x = x :=
  extract_second t x y n

@[simp] theorem y_of_xyn (t x y n : BitVec 4) : (Fields.ofWord (t ++ x ++ y ++ n)).y = y :=
  extract_mid (t ++ x) y n

@[simp] theorem n_of_xyn (t x y n : BitVec 4) : (Fields.ofWord (t ++ x ++ y ++ n)).n = n :=
  BitVec.extractLsb'_append_eq_right

/-! ### Fixed bits of a word laid out by R72 -/

theorem and_nnn (t : BitVec 4) (nnn : BitVec 12) : (t ++ nnn : Word) &&& 0xF000#16 = t ++ 0#12 := by
  have h : (t ++ nnn) &&& (BitVec.allOnes 4 ++ 0#12) = t ++ 0#12 := by
    simp only [BitVec.and_append, BitVec.and_allOnes, BitVec.and_zero]
  exact h

theorem and_xnn (t x : BitVec 4) (nn : BitVec 8) : (t ++ x ++ nn : Word) &&& 0xF000#16 = t ++ 0#4 ++ 0#8 := by
  have h : (t ++ x ++ nn) &&& (BitVec.allOnes 4 ++ 0#4 ++ 0#8) = t ++ 0#4 ++ 0#8 := by
    simp only [BitVec.and_append, BitVec.and_allOnes, BitVec.and_zero]
  exact h

theorem and_x (t x : BitVec 4) (nn : BitVec 8) : (t ++ x ++ nn : Word) &&& 0xF0FF#16 = t ++ 0#4 ++ nn := by
  have h : (t ++ x ++ nn) &&& (BitVec.allOnes 4 ++ 0#4 ++ BitVec.allOnes 8) = t ++ 0#4 ++ nn := by
    simp only [BitVec.and_append, BitVec.and_allOnes, BitVec.and_zero]
  exact h

theorem and_xyn (t x y n : BitVec 4) :
    (t ++ x ++ y ++ n : Word) &&& 0xF000#16 = t ++ 0#4 ++ 0#4 ++ 0#4 := by
  have h : (t ++ x ++ y ++ n) &&& (BitVec.allOnes 4 ++ 0#4 ++ 0#4 ++ 0#4) = t ++ 0#4 ++ 0#4 ++ 0#4 := by
    simp only [BitVec.and_append, BitVec.and_allOnes, BitVec.and_zero]
  exact h

theorem and_xy (t x y n : BitVec 4) : (t ++ x ++ y ++ n : Word) &&& 0xF00F#16 = t ++ 0#4 ++ 0#4 ++ n := by
  have h : (t ++ x ++ y ++ n) &&& (BitVec.allOnes 4 ++ 0#4 ++ 0#4 ++ BitVec.allOnes 4) = t ++ 0#4 ++ 0#4 ++ n := by
    simp only [BitVec.and_append, BitVec.and_allOnes, BitVec.and_zero]
  exact h

/-! ### The rows are disjoint -/

/-- Two rows differ in a bit that both fix. -/
theorem rows_differ : opcodeRows.Pairwise fun r q => (r.pat ^^^ q.pat) &&& r.mask &&& q.mask ≠ 0#16 := by
  decide

theorem rows_disjoint : opcodeRows.Pairwise fun r q => ∀ op, ¬ (r.selects op ∧ q.selects op) := by
  refine rows_differ.imp ?_
  intro r q h op ⟨h1, h2⟩
  simp only [Row.selects, beq_iff_eq] at h1 h2
  apply h
  rw [← h1, ← h2]
  ext i hi
  simp only [BitVec.getElem_and, BitVec.getElem_xor, BitVec.getElem_zero]
  cases op[i] <;> cases r.mask[i] <;> cases q.mask[i] <;> rfl

theorem find_of_selects (l : List Row) (hp : l.Pairwise fun r q => ∀ op, ¬ (r.selects op ∧ q.selects op)) (r : Row)
    (hr : r ∈ l) (op : Word) (hs : r.selects op) : l.find? (·.selects op) = some r := by
  induction l with
  | nil => cases hr
  | cons q l ih =>
    rw [List.pairwise_cons] at hp
    rcases List.mem_cons.1 hr with rfl | hr
    · simp [hs]
    · have hq : q.selects op = false := by simpa [hs] using hp.1 r hr op
      simp [hq, ih hp.2 hr]

/-- The decoder answers whichever row the word selects (R74). -/
theorem decode_of_selects {r : Row} (hr : r ∈ opcodeRows) {op : Word} (hs : r.selects op) :
    decode op = .ok (r.build (Fields.ofWord op)) := by
  simp [decode, find_of_selects opcodeRows rows_disjoint r hr op hs]

/-- A word that decodes selects a row, and is that row's instruction. -/
theorem decode_cases {op : Word} {i : Instr} (h : decode op = .ok i) :
    ∃ r ∈ opcodeRows, r.selects op = true ∧ r.build (Fields.ofWord op) = i := by
  unfold decode at h
  split at h
  · next r hr => exact ⟨r, List.mem_of_find?_eq_some hr, by simpa using List.find?_some hr, by simpa using h⟩
  · cases h

/-- A word that does not decode selects no row, and is reported as it is. -/
theorem decode_error_cases {op : Word} {e : Reject} (h : decode op = .error e) :
    e = .unrecognised op ∧ ∀ r ∈ opcodeRows, r.selects op = false := by
  unfold decode at h
  split at h
  · cases h
  · next hn => exact ⟨by simpa using h.symm, fun r hr => by simpa using List.find?_eq_none.1 hn r hr⟩

end Sys2Proof
end

