-- ==== Sys2Proof/Laws/PerInstr.lean ====
section
/-!
SUPPORT. Per instruction: its word selects a row of the opcode map, and the fields of that word, put through the row,
give the instruction back (30_encoding.md R72, R75).
-/

namespace Sys2Proof.Laws.Encoding

/-- The word of the instruction selects a row whose fields spell the instruction. -/
def Statement (i : Instr) : Prop :=
  ∃ r ∈ opcodeRows, r.selects (encode i) = true ∧ r.build (Fields.ofWord (encode i)) = i

/-- A row at a place of the opcode map whose fixed bits the word has. -/
theorem of_row {i : Instr} (k : Nat) (r : Row) (hk : opcodeRows[k]? = some r) (hs : encode i &&& r.mask = r.pat)
    (hb : r.build (Fields.ofWord (encode i)) = i) : Statement i :=
  ⟨r, List.mem_of_getElem? hk, by simpa [Row.selects] using hs, hb⟩

theorem cls : Statement .cls := of_row 0 ⟨0xFFFF#16, 0x00E0#16, fun _ => .cls⟩ rfl
    rfl rfl

theorem ret : Statement .ret := of_row 1 ⟨0xFFFF#16, 0x00EE#16, fun _ => .ret⟩ rfl
    rfl rfl

theorem jpNNN (nnn : BitVec 12) : Statement (.jpNNN nnn) :=
  of_row 2 ⟨0xF000#16, 0x1000#16, fun f => .jpNNN f.nnn⟩ rfl
    (and_nnn 0x1#4 nnn)
    (congrArg Instr.jpNNN (nnn_of_nnn 0x1#4 nnn))

theorem callNNN (nnn : BitVec 12) : Statement (.callNNN nnn) :=
  of_row 3 ⟨0xF000#16, 0x2000#16, fun f => .callNNN f.nnn⟩ rfl
    (and_nnn 0x2#4 nnn)
    (congrArg Instr.callNNN (nnn_of_nnn 0x2#4 nnn))

theorem seVxNN (x : Reg) (nn : Byte) : Statement (.seVxNN x nn) :=
  of_row 4 ⟨0xF000#16, 0x3000#16, fun f => .seVxNN f.x f.nn⟩ rfl
    (and_xnn 0x3#4 x nn)
    (congrArg₂ Instr.seVxNN (x_of_xnn 0x3#4 x nn) (nn_of_xnn 0x3#4 x nn))

theorem sneVxNN (x : Reg) (nn : Byte) : Statement (.sneVxNN x nn) :=
  of_row 5 ⟨0xF000#16, 0x4000#16, fun f => .sneVxNN f.x f.nn⟩ rfl
    (and_xnn 0x4#4 x nn)
    (congrArg₂ Instr.sneVxNN (x_of_xnn 0x4#4 x nn) (nn_of_xnn 0x4#4 x nn))

theorem seVxVy (x : Reg) (y : Reg) : Statement (.seVxVy x y) :=
  of_row 6 ⟨0xF00F#16, 0x5000#16, fun f => .seVxVy f.x f.y⟩ rfl
    (and_xy 0x5#4 x y 0x0#4)
    (congrArg₂ Instr.seVxVy (x_of_xyn 0x5#4 x y 0x0#4) (y_of_xyn 0x5#4 x y 0x0#4))

theorem ldVxNN (x : Reg) (nn : Byte) : Statement (.ldVxNN x nn) :=
  of_row 7 ⟨0xF000#16, 0x6000#16, fun f => .ldVxNN f.x f.nn⟩ rfl
    (and_xnn 0x6#4 x nn)
    (congrArg₂ Instr.ldVxNN (x_of_xnn 0x6#4 x nn) (nn_of_xnn 0x6#4 x nn))

theorem addVxNN (x : Reg) (nn : Byte) : Statement (.addVxNN x nn) :=
  of_row 8 ⟨0xF000#16, 0x7000#16, fun f => .addVxNN f.x f.nn⟩ rfl
    (and_xnn 0x7#4 x nn)
    (congrArg₂ Instr.addVxNN (x_of_xnn 0x7#4 x nn) (nn_of_xnn 0x7#4 x nn))

theorem ldVxVy (x : Reg) (y : Reg) : Statement (.ldVxVy x y) :=
  of_row 9 ⟨0xF00F#16, 0x8000#16, fun f => .ldVxVy f.x f.y⟩ rfl
    (and_xy 0x8#4 x y 0x0#4)
    (congrArg₂ Instr.ldVxVy (x_of_xyn 0x8#4 x y 0x0#4) (y_of_xyn 0x8#4 x y 0x0#4))

theorem orVxVy (x : Reg) (y : Reg) : Statement (.orVxVy x y) :=
  of_row 10 ⟨0xF00F#16, 0x8001#16, fun f => .orVxVy f.x f.y⟩ rfl
    (and_xy 0x8#4 x y 0x1#4)
    (congrArg₂ Instr.orVxVy (x_of_xyn 0x8#4 x y 0x1#4) (y_of_xyn 0x8#4 x y 0x1#4))

theorem andVxVy (x : Reg) (y : Reg) : Statement (.andVxVy x y) :=
  of_row 11 ⟨0xF00F#16, 0x8002#16, fun f => .andVxVy f.x f.y⟩ rfl
    (and_xy 0x8#4 x y 0x2#4)
    (congrArg₂ Instr.andVxVy (x_of_xyn 0x8#4 x y 0x2#4) (y_of_xyn 0x8#4 x y 0x2#4))

theorem xorVxVy (x : Reg) (y : Reg) : Statement (.xorVxVy x y) :=
  of_row 12 ⟨0xF00F#16, 0x8003#16, fun f => .xorVxVy f.x f.y⟩ rfl
    (and_xy 0x8#4 x y 0x3#4)
    (congrArg₂ Instr.xorVxVy (x_of_xyn 0x8#4 x y 0x3#4) (y_of_xyn 0x8#4 x y 0x3#4))

theorem addVxVy (x : Reg) (y : Reg) : Statement (.addVxVy x y) :=
  of_row 13 ⟨0xF00F#16, 0x8004#16, fun f => .addVxVy f.x f.y⟩ rfl
    (and_xy 0x8#4 x y 0x4#4)
    (congrArg₂ Instr.addVxVy (x_of_xyn 0x8#4 x y 0x4#4) (y_of_xyn 0x8#4 x y 0x4#4))

theorem subVxVy (x : Reg) (y : Reg) : Statement (.subVxVy x y) :=
  of_row 14 ⟨0xF00F#16, 0x8005#16, fun f => .subVxVy f.x f.y⟩ rfl
    (and_xy 0x8#4 x y 0x5#4)
    (congrArg₂ Instr.subVxVy (x_of_xyn 0x8#4 x y 0x5#4) (y_of_xyn 0x8#4 x y 0x5#4))

theorem shrVx (x : Reg) (y : Reg) : Statement (.shrVx x y) :=
  of_row 15 ⟨0xF00F#16, 0x8006#16, fun f => .shrVx f.x f.y⟩ rfl
    (and_xy 0x8#4 x y 0x6#4)
    (congrArg₂ Instr.shrVx (x_of_xyn 0x8#4 x y 0x6#4) (y_of_xyn 0x8#4 x y 0x6#4))

theorem subnVxVy (x : Reg) (y : Reg) : Statement (.subnVxVy x y) :=
  of_row 16 ⟨0xF00F#16, 0x8007#16, fun f => .subnVxVy f.x f.y⟩ rfl
    (and_xy 0x8#4 x y 0x7#4)
    (congrArg₂ Instr.subnVxVy (x_of_xyn 0x8#4 x y 0x7#4) (y_of_xyn 0x8#4 x y 0x7#4))

theorem shlVx (x : Reg) (y : Reg) : Statement (.shlVx x y) :=
  of_row 17 ⟨0xF00F#16, 0x800E#16, fun f => .shlVx f.x f.y⟩ rfl
    (and_xy 0x8#4 x y 0xE#4)
    (congrArg₂ Instr.shlVx (x_of_xyn 0x8#4 x y 0xE#4) (y_of_xyn 0x8#4 x y 0xE#4))

theorem sneVxVy (x : Reg) (y : Reg) : Statement (.sneVxVy x y) :=
  of_row 18 ⟨0xF00F#16, 0x9000#16, fun f => .sneVxVy f.x f.y⟩ rfl
    (and_xy 0x9#4 x y 0x0#4)
    (congrArg₂ Instr.sneVxVy (x_of_xyn 0x9#4 x y 0x0#4) (y_of_xyn 0x9#4 x y 0x0#4))

theorem ldINNN (nnn : BitVec 12) : Statement (.ldINNN nnn) :=
  of_row 19 ⟨0xF000#16, 0xA000#16, fun f => .ldINNN f.nnn⟩ rfl
    (and_nnn 0xA#4 nnn)
    (congrArg Instr.ldINNN (nnn_of_nnn 0xA#4 nnn))

theorem jpV0NNN (nnn : BitVec 12) : Statement (.jpV0NNN nnn) :=
  of_row 20 ⟨0xF000#16, 0xB000#16, fun f => .jpV0NNN f.nnn⟩ rfl
    (and_nnn 0xB#4 nnn)
    (congrArg Instr.jpV0NNN (nnn_of_nnn 0xB#4 nnn))

theorem rndVxNN (x : Reg) (nn : Byte) : Statement (.rndVxNN x nn) :=
  of_row 21 ⟨0xF000#16, 0xC000#16, fun f => .rndVxNN f.x f.nn⟩ rfl
    (and_xnn 0xC#4 x nn)
    (congrArg₂ Instr.rndVxNN (x_of_xnn 0xC#4 x nn) (nn_of_xnn 0xC#4 x nn))

theorem drwVxVyN (x : Reg) (y : Reg) (n : BitVec 4) : Statement (.drwVxVyN x y n) :=
  of_row 22 ⟨0xF000#16, 0xD000#16, fun f => .drwVxVyN f.x f.y f.n⟩ rfl
    (and_xyn 0xD#4 x y n)
    (congr (congrArg₂ Instr.drwVxVyN (x_of_xyn 0xD#4 x y n) (y_of_xyn 0xD#4 x y n)) (n_of_xyn 0xD#4 x y n))

theorem skpVx (x : Reg) : Statement (.skpVx x) :=
  of_row 23 ⟨0xF0FF#16, 0xE09E#16, fun f => .skpVx f.x⟩ rfl
    (and_x 0xE#4 x 0x9E#8)
    (congrArg Instr.skpVx (x_of_xnn 0xE#4 x 0x9E#8))

theorem sknpVx (x : Reg) : Statement (.sknpVx x) :=
  of_row 24 ⟨0xF0FF#16, 0xE0A1#16, fun f => .sknpVx f.x⟩ rfl
    (and_x 0xE#4 x 0xA1#8)
    (congrArg Instr.sknpVx (x_of_xnn 0xE#4 x 0xA1#8))

theorem ldVxDT (x : Reg) : Statement (.ldVxDT x) :=
  of_row 25 ⟨0xF0FF#16, 0xF007#16, fun f => .ldVxDT f.x⟩ rfl
    (and_x 0xF#4 x 0x07#8)
    (congrArg Instr.ldVxDT (x_of_xnn 0xF#4 x 0x07#8))

theorem ldVxK (x : Reg) : Statement (.ldVxK x) :=
  of_row 26 ⟨0xF0FF#16, 0xF00A#16, fun f => .ldVxK f.x⟩ rfl
    (and_x 0xF#4 x 0x0A#8)
    (congrArg Instr.ldVxK (x_of_xnn 0xF#4 x 0x0A#8))

theorem ldDTVx (x : Reg) : Statement (.ldDTVx x) :=
  of_row 27 ⟨0xF0FF#16, 0xF015#16, fun f => .ldDTVx f.x⟩ rfl
    (and_x 0xF#4 x 0x15#8)
    (congrArg Instr.ldDTVx (x_of_xnn 0xF#4 x 0x15#8))

theorem ldSTVx (x : Reg) : Statement (.ldSTVx x) :=
  of_row 28 ⟨0xF0FF#16, 0xF018#16, fun f => .ldSTVx f.x⟩ rfl
    (and_x 0xF#4 x 0x18#8)
    (congrArg Instr.ldSTVx (x_of_xnn 0xF#4 x 0x18#8))

theorem addIVx (x : Reg) : Statement (.addIVx x) :=
  of_row 29 ⟨0xF0FF#16, 0xF01E#16, fun f => .addIVx f.x⟩ rfl
    (and_x 0xF#4 x 0x1E#8)
    (congrArg Instr.addIVx (x_of_xnn 0xF#4 x 0x1E#8))

theorem ldFVx (x : Reg) : Statement (.ldFVx x) :=
  of_row 30 ⟨0xF0FF#16, 0xF029#16, fun f => .ldFVx f.x⟩ rfl
    (and_x 0xF#4 x 0x29#8)
    (congrArg Instr.ldFVx (x_of_xnn 0xF#4 x 0x29#8))

theorem ldBVx (x : Reg) : Statement (.ldBVx x) :=
  of_row 31 ⟨0xF0FF#16, 0xF033#16, fun f => .ldBVx f.x⟩ rfl
    (and_x 0xF#4 x 0x33#8)
    (congrArg Instr.ldBVx (x_of_xnn 0xF#4 x 0x33#8))

theorem ldMemVx (x : Reg) : Statement (.ldMemVx x) :=
  of_row 32 ⟨0xF0FF#16, 0xF055#16, fun f => .ldMemVx f.x⟩ rfl
    (and_x 0xF#4 x 0x55#8)
    (congrArg Instr.ldMemVx (x_of_xnn 0xF#4 x 0x55#8))

theorem ldVxMem (x : Reg) : Statement (.ldVxMem x) :=
  of_row 33 ⟨0xF0FF#16, 0xF065#16, fun f => .ldVxMem f.x⟩ rfl
    (and_x 0xF#4 x 0x65#8)
    (congrArg Instr.ldVxMem (x_of_xnn 0xF#4 x 0x65#8))

end Sys2Proof.Laws.Encoding
end

