-- ==== Sys2Proof/Laws/Exec.lean ====
section
/-!
SUPPORT. The meanings that can fault, each said once: the state it answers when its condition holds, the raise when it
does not (60_exceptions.md R182, R183).
-/

namespace Sys2Proof.Machine

/-- 00EE completes: the pop and the jump. -/
theorem execRet_pops {s : State} (h : 0 < s.sp.val) :
    execRet s = .next ({ s with sp := ⟨s.sp.val - 1, by omega⟩ }.jump (s.entry (s.sp.val - 1))) := by
  have : s.sp.val - 1 < 16 := by omega
  simp [execRet, State.pop, h, State.entry, this]

theorem execRet_underflow {s : State} (h : s.sp.val = 0) :
    execRet s = .next (s.raise .stackUnderflow 0x00EE#16) := by
  simp [execRet, State.pop_eq_none h, encode]

/-- 2NNN completes: the push and the jump. -/
theorem execCallNNN_pushes {s : State} (nnn : BitVec 12) (h : s.sp.val < 16) :
    execCallNNN nnn s = .next ({ s with
      stack := s.stack.set s.sp.val (s.pc + 2#16) h
      sp := ⟨s.sp.val + 1, by omega⟩ }.jump (zextAddr nnn)) := by
  simp [execCallNNN, State.push, h, State.npc]

theorem execCallNNN_overflow {s : State} (nnn : BitVec 12) (h : s.sp.val = 16) :
    execCallNNN nnn s = .next (s.raise .stackOverflow (0x2#4 ++ nnn)) := by
  simp [execCallNNN, State.push_eq_none h, encode]

@[simp] theorem bcdDigits_length (a : Byte) : (bcdDigits a).length = 3 := rfl

@[simp] theorem State.regsTo_length (s : State) (x : Reg) : (s.regsTo x).length = x.toNat + 1 := by
  have := x.isLt
  simp [State.regsTo]
  omega

/-- The k-th register FX55 stores. -/
theorem State.regsTo_getElem? (s : State) (x r : Reg) (h : r.toNat ≤ x.toNat) :
    (s.regsTo x)[r.toNat]? = some (s.reg r) := by
  have := r.isLt
  simp [State.regsTo, State.reg, show r.toNat < x.toNat + 1 by omega]

/-- FX33 completes: three bytes stored. -/
theorem execLdBVx_stores {s : State} (x : Reg) (h : s.index.toNat + 2 ≤ 0xFFF) :
    execLdBVx x s = .next (s.setMem (s.mem.writeBytes s.index.toNat (bcdDigits (s.reg x)))).done := by
  simp [execLdBVx, State.base,
    State.store_eq_some (s := s) (addr := s.index.toNat) (bs := bcdDigits (s.reg x)) (by simp; omega)]

theorem execLdBVx_faults {s : State} (x : Reg) (h : 0xFFF < s.index.toNat + 2) :
    execLdBVx x s = .next (s.raise .memoryOutOfRange (0xF#4 ++ x ++ 0x33#8)) := by
  simp [execLdBVx, State.base, encode,
    State.store_eq_none (s := s) (addr := s.index.toNat) (bs := bcdDigits (s.reg x)) (by simp; omega)]

/-- FX55 completes: V0 to VX stored. -/
theorem execLdMemVx_stores {s : State} (x : Reg) (h : s.index.toNat + x.toNat ≤ 0xFFF) :
    execLdMemVx x s = .next (s.setMem (s.mem.writeBytes s.index.toNat (s.regsTo x))).done := by
  simp [execLdMemVx, State.base,
    State.store_eq_some (s := s) (addr := s.index.toNat) (bs := s.regsTo x) (by simp; omega)]

theorem execLdMemVx_faults {s : State} (x : Reg) (h : 0xFFF < s.index.toNat + x.toNat) :
    execLdMemVx x s = .next (s.raise .memoryOutOfRange (0xF#4 ++ x ++ 0x55#8)) := by
  simp [execLdMemVx, State.base, encode,
    State.store_eq_none (s := s) (addr := s.index.toNat) (bs := s.regsTo x) (by simp; omega)]

/-- FX65 completes: V0 to VX loaded. -/
theorem execLdVxMem_loads {s : State} (x : Reg) (h : s.index.toNat + x.toNat ≤ 0xFFF) :
    execLdVxMem x s =
      .next (s.setRegs ((List.range (x.toNat + 1)).map fun k => s.mem.read (s.index.toNat + k))).done := by
  simp [execLdVxMem, State.base,
    State.load_eq_some (s := s) (addr := s.index.toNat) (n := x.toNat + 1) (by omega)]

theorem execLdVxMem_faults {s : State} (x : Reg) (h : 0xFFF < s.index.toNat + x.toNat) :
    execLdVxMem x s = .next (s.raise .memoryOutOfRange (0xF#4 ++ x ++ 0x65#8)) := by
  simp [execLdVxMem, State.base, encode,
    State.load_eq_none (s := s) (addr := s.index.toNat) (n := x.toNat + 1) (by omega)]

/-- DXYN completes: its rows are the N bytes at I, and they are drawn. -/
theorem execDrwVxVyN_draws {s : State} (x y : Reg) (n : BitVec 4) (h : n = 0 ∨ s.index.toNat + n.toNat - 1 ≤ 0xFFF) :
    execDrwVxVyN x y n s =
      .next (s.drawSprite x y ((List.range n.toNat).map fun k => s.mem.read (s.index.toNat + k))).done := by
  by_cases hn : n.toNat = 0
  · simp [execDrwVxVyN, State.spriteRows, hn]
  · have h0 : s.index.toNat + n.toNat - 1 ≤ 0xFFF := h.resolve_left fun h => hn (by simp [h])
    simp [execDrwVxVyN, State.spriteRows, State.base, hn,
      State.load_eq_some (s := s) (addr := s.index.toNat) (n := n.toNat) (by omega)]

theorem execDrwVxVyN_faults {s : State} (x y : Reg) (n : BitVec 4) (hn : 1 ≤ n.toNat)
    (h : 0xFFF < s.index.toNat + n.toNat - 1) :
    execDrwVxVyN x y n s = .next (s.raise .memoryOutOfRange (0xD#4 ++ x ++ y ++ n)) := by
  simp [execDrwVxVyN, State.spriteRows, State.base, encode, show n.toNat ≠ 0 by omega,
    State.load_eq_none (s := s) (addr := s.index.toNat) (n := n.toNat) (by omega)]

/-! ### What a draw leaves -/

theorem State.drawSprite_fb (s : State) (x y : Reg) (rows : List Byte) :
    (s.drawSprite x y rows).fb =
      (Canvas.drawRows ⟨s.fb, false⟩ ((s.reg x).toNat % 64) ((s.reg y).toNat % 32) rows).fb := rfl

@[simp] theorem State.drawSprite_reg_vf (s : State) (x y : Reg) (rows : List Byte) :
    (s.drawSprite x y rows).reg Reg.vf =
      flagByte (Canvas.drawRows ⟨s.fb, false⟩ ((s.reg x).toNat % 64) ((s.reg y).toNat % 32) rows).hit := by
  simp [State.drawSprite]

theorem State.drawSprite_reg_ne (s : State) (x y : Reg) (rows : List Byte) {r : Reg} (h : r ≠ Reg.vf) :
    (s.drawSprite x y rows).reg r = s.reg r := by
  simp [State.drawSprite, State.reg_setReg_ne _ _ h]

/-- The rows of DXYN put the sprite's bits where `spriteBit` says. -/
theorem rowsBit_eq_spriteBit (s : State) (x y : Reg) (n : BitVec 4) (px py : Nat) :
    rowsBit ((List.range n.toNat).map fun k => s.mem.read (s.index.toNat + k)) ((s.reg x).toNat % 64)
      ((s.reg y).toNat % 32) px py = spriteBit s x y n px py := by
  by_cases hy : (s.reg y).toNat % 32 ≤ py ∧ py < (s.reg y).toNat % 32 + n.toNat
  · rw [rowsBit_inside (by simpa using hy)]
    by_cases hx : (s.reg x).toNat % 64 ≤ px ∧ px < (s.reg x).toNat % 64 + 8
    · rw [rowBit_inside _ (by omega)]
      have hk : py - (s.reg y).toNat % 32 < n.toNat := by omega
      simp [spriteBit, hx, hy, hk]
    · rw [rowBit_outside _ (by omega)]
      simp only [spriteBit]
      rw [decide_eq_false (by omega), Bool.false_and]
  · rw [rowsBit_outside (by simpa using hy)]
    simp only [spriteBit]
    rw [decide_eq_false (by omega), Bool.false_and]

end Sys2Proof.Machine
end

