-- ==== Sys2Proof/Laws/Step.lean ====
section
/-!
SUPPORT. What a Step can do, said once (40_fetch_dispatch.md R90).
-/

namespace Sys2Proof.Machine

/-- A Step is one of five things, by HALT, WAIT, the fetch and the decoder. -/
theorem coreStep_cases {s t : State} (h : coreStep s = .next t) :
    (s.halt = true ∧ t = s.haltedStep) ∨
    (s.halt = false ∧ s.wait = true ∧ t = s.keyWaitRetry) ∨
    (s.running ∧ s.fetch = none ∧ t = s.fetchFault) ∨
    (s.running ∧ ∃ op, s.fetch = some op ∧ decode op = .error (.unrecognised op) ∧ t = s.unrecognised op) ∨
    (s.running ∧ ∃ op i, s.fetch = some op ∧ decode op = .ok i ∧ exec i s = .next t) := by
  unfold coreStep at h
  split at h
  · next hh => exact .inl ⟨hh, by simpa using h.symm⟩
  · next hh =>
    have hh : s.halt = false := by simpa using hh
    split at h
    · next hw => exact .inr (.inl ⟨hh, hw, by simpa using h.symm⟩)
    · next hw =>
      have hw : s.wait = false := by simpa using hw
      split at h
      · next hf => exact .inr (.inr (.inl ⟨⟨hh, hw⟩, hf, by simpa using h.symm⟩))
      · next op hf =>
        split at h
        · next i hd => exact .inr (.inr (.inr (.inr ⟨⟨hh, hw⟩, op, i, hf, hd, h⟩)))
        · next e hd =>
          obtain ⟨rfl, -⟩ := decode_error_cases hd
          exact .inr (.inr (.inr (.inl ⟨⟨hh, hw⟩, op, hf, hd, by simpa using h.symm⟩)))

theorem coreStep_running {s : State} {op : Word} {i : Instr} (hr : s.running) (hf : s.fetch = some op)
    (hd : decode op = .ok i) : coreStep s = exec i s := by
  simp [coreStep, hr.1, hr.2, hf, hd]

theorem coreStep_unrecognised {s : State} {op : Word} {e : Reject} (hr : s.running) (hf : s.fetch = some op)
    (hd : decode op = .error e) : coreStep s = .next (s.unrecognised op) := by
  simp [coreStep, hr.1, hr.2, hf, hd]

theorem coreStep_fetchFault {s : State} (hr : s.running) (hf : s.fetch = none) :
    coreStep s = .next s.fetchFault := by
  simp [coreStep, hr.1, hr.2, hf]

theorem coreStep_halted {s : State} (h : s.halt = true) : coreStep s = .next s.haltedStep := by
  simp [coreStep, h]

theorem coreStep_waiting {s : State} (h : s.halt = false) (hw : s.wait = true) :
    coreStep s = .next s.keyWaitRetry := by
  simp [coreStep, h, hw]

/-- The retry without a key. -/
theorem State.keyWaitRetry_none {s : State} (h : s.keyNew = none) :
    s.keyWaitRetry = s.dropKey.stillWaiting := by
  simp [State.keyWaitRetry, State.keyConsume, h]

/-- The retry with a key. -/
theorem State.keyWaitRetry_some {s : State} {k : Key} (h : s.keyNew = some k) :
    s.keyWaitRetry = (s.dropKey.setReg s.waitX (zextKey k)).resume := by
  simp [State.keyWaitRetry, State.keyConsume, h]

/-- A raise changes no part but HALT and its record, and leaves what R185 says. -/
theorem haltedBy_raise (s : State) (c : Cause) (op : Word) : HaltedBy c op s (s.raise c op) := by
  refine ⟨rfl, rfl, rfl, rfl, rfl, rfl, fun p hp => ?_⟩
  cases p <;> simp [Part.same] at hp ⊢

end Sys2Proof.Machine
end

