-- ==== Sys2Proof/Tests/Slice0.lean ====
section
/-!
SUPPORT. The model's own tests. Expected values come from the spec: the words of 30_encoding.md R72 and R75, the
examples S7, S8 and the derived vectors V30 to V46 of 95_test_vectors.md. After them one witness, or one per clause, for
every statement of Obligations.lean that has hypotheses.
-/

namespace Sys2Proof.Tests

open Sys2Proof.Machine

/-- The state after reset (R35). -/
def s0 : State := State.reset

/-- The state with bytes placed from an address on. -/
def bytesAt (s : State) (a : Nat) (bs : List Byte) : State := s.setMem (s.mem.writeBytes a bs)

/-- The state with PC moved. -/
def pcAt (s : State) (a : Word) : State := s.jump a

/-- The state with SP at n and, below it, the entry n − 1 given. -/
def stackAt (s : State) (n : Fin 17) (w : Word) : State :=
  { s with sp := n, stack := if h : n.val - 1 < 16 then s.stack.set (n.val - 1) w h else s.stack }

/-- The state with KEY_CUR and KEY_NEW given. -/
def keys (s : State) (cur new : Option Key) : State := s.inputUpdate cur new

/-- A halted state: a return from an empty stack. -/
def halted : State := s0.raise .stackUnderflow 0x00EE#16

/-- What holds after one Step on the word, stored where it is fetched. -/
def runs (w : Word) (s : State) (p : State → Bool) : Bool :=
  match coreStep (s.withFetchWord 16 w.toNat) with
  | .next t => p t
  | _ => false

/-- The Step faults with this cause, the word and its address in the record, PC at the instruction. -/
def faults (w : Word) (s : State) (c : Cause) : Bool :=
  runs w s fun t => t.halt && t.faultCause == c && t.faultPc == s.pc && t.faultOp == w && t.pc == s.pc &&
    t.event == .fault c w s.pc

/-! ### WellFormed: one ill-formed launch for each check, and the bounds -/

theorem test_launch_below_reserved : (Launch.mk 0x1FF []).aboveReserved = false ∧
    launch ⟨0x1FF, []⟩ = .refused .loadAddressOutOfRange := ⟨by decide, rfl⟩

theorem test_launch_entry_too_high : (Launch.mk 0xFFF []).entryInRange = false ∧
    launch ⟨0xFFF, []⟩ = .refused .loadAddressOutOfRange := ⟨by decide, rfl⟩

theorem test_launch_image_too_long : (Launch.mk 0xFFE [0#8, 0#8, 0#8]).imageFits = false ∧
    launch ⟨0xFFE, [0#8, 0#8, 0#8]⟩ = .refused .imageTooLong := ⟨by decide, rfl⟩

theorem test_launch_at_the_bounds :
    (Launch.mk 0x200 []).wellFormed = true ∧ (Launch.mk 0xFFE [0x12#8, 0x00#8]).wellFormed = true := by decide

/-! ### Decoding: a word of each row, written out from R72 and R75 -/

theorem test_decode_low :
    decode 0x00E0#16 = .ok .cls ∧ decode 0x00EE#16 = .ok .ret ∧ decode 0x1FFF#16 = .ok (.jpNNN 0xFFF) ∧
    decode 0x2345#16 = .ok (.callNNN 0x345) ∧ decode 0x332A#16 = .ok (.seVxNN 0x3 0x2A) ∧
    decode 0x4F80#16 = .ok (.sneVxNN 0xF 0x80) ∧ decode 0x5AB0#16 = .ok (.seVxVy 0xA 0xB) ∧
    decode 0x6F07#16 = .ok (.ldVxNN 0xF 0x07) ∧ decode 0x71FF#16 = .ok (.addVxNN 0x1 0xFF) := by decide

theorem test_decode_alu :
    decode 0x8120#16 = .ok (.ldVxVy 0x1 0x2) ∧ decode 0x8121#16 = .ok (.orVxVy 0x1 0x2) ∧
    decode 0x8122#16 = .ok (.andVxVy 0x1 0x2) ∧ decode 0x8123#16 = .ok (.xorVxVy 0x1 0x2) ∧
    decode 0x8124#16 = .ok (.addVxVy 0x1 0x2) ∧ decode 0x8F25#16 = .ok (.subVxVy 0xF 0x2) ∧
    decode 0x8126#16 = .ok (.shrVx 0x1 0x2) ∧ decode 0x8127#16 = .ok (.subnVxVy 0x1 0x2) ∧
    decode 0x8ABE#16 = .ok (.shlVx 0xA 0xB) ∧ decode 0x9AB0#16 = .ok (.sneVxVy 0xA 0xB) := by decide

theorem test_decode_mid :
    decode 0xA123#16 = .ok (.ldINNN 0x123) ∧ decode 0xBFFF#16 = .ok (.jpV0NNN 0xFFF) ∧
    decode 0xC10F#16 = .ok (.rndVxNN 0x1 0x0F) ∧ decode 0xD12A#16 = .ok (.drwVxVyN 0x1 0x2 0xA) ∧
    decode 0xE29E#16 = .ok (.skpVx 0x2) ∧ decode 0xE2A1#16 = .ok (.sknpVx 0x2) := by decide

theorem test_decode_high :
    decode 0xF307#16 = .ok (.ldVxDT 0x3) ∧ decode 0xF30A#16 = .ok (.ldVxK 0x3) ∧
    decode 0xF315#16 = .ok (.ldDTVx 0x3) ∧ decode 0xF318#16 = .ok (.ldSTVx 0x3) ∧
    decode 0xF21E#16 = .ok (.addIVx 0x2) ∧ decode 0xF429#16 = .ok (.ldFVx 0x4) ∧
    decode 0xF133#16 = .ok (.ldBVx 0x1) ∧ decode 0xF255#16 = .ok (.ldMemVx 0x2) ∧
    decode 0xF165#16 = .ok (.ldVxMem 0x1) := by decide

/-- The table of R76: a word of each of its rows. -/
theorem test_unrecognised :
    [0x0000#16, 0x01E0#16, 0x5AB1#16, 0x8AB8#16, 0x8ABD#16, 0x8ABF#16, 0x9ABF#16, 0xE19F#16, 0xF175#16,
      0xFFFF#16].all (fun w => decide (decode w = .error (.unrecognised w))) = true := by decide

/-- R54: the high byte is at the lower address (section 2.1 of 95_test_vectors.md). -/
theorem test_byte_order :
    decodeBytes [0xD1#8, 0x2A#8, 0x00#8] = .ok (.drwVxVyN 0x1 0x2 0xA, [0x00#8]) ∧
    (bytesAt s0 0x200 [0xD1#8, 0x2A#8]).fetch = some 0xD12A#16 ∧
    encodeBytes (.drwVxVyN 0x1 0x2 0xA) = [0xD1#8, 0x2A#8] ∧ decodeBytes [0xD1#8] = .error .truncated := by decide

theorem test_table_word :
    decodeTableWord 16 0x8AB6 = some (.shrVx 0xA 0xB) ∧ decodeTableWord 16 0x5AB1 = none ∧
    (s0.withFetchWord 16 0x8AB6).fetch = some 0x8AB6#16 := by decide

/-! ### One Step on one word (95_test_vectors.md section 2) -/

/-- V40-1. -/
theorem test_unrecognised_step : runs 0x5AB1#16 s0 fun t =>
    t.pc == 0x202#16 && t.event == .unrecognised 0x5AB1#16 0x200#16 && t.v == s0.v := by decide

/-- V40-2, V40-4, V41-10's next Step; that the event's op is 0x0000 is the model's own choice (log 16). -/
theorem test_fetch_bounds :
    runs 0x6A55#16 (pcAt s0 0xFFE#16) (fun t => t.reg 0xA#4 == 0x55#8 && t.pc == 0x1000#16) ∧
    faults 0x0000#16 (pcAt s0 0xFFF#16) .memoryOutOfRange ∧ faults 0x0000#16 (pcAt s0 0x1000#16) .memoryOutOfRange := by
  decide

/-- V40-5, V40-6. -/
theorem test_halted : (coreStep halted = .next halted.haltedStep) ∧ (halted.setDt 5#8).tick.dt = 4#8 :=
  ⟨rfl, by decide⟩

/-- V40-7. -/
theorem test_odd_pc : runs 0x6307#16 (pcAt s0 0x201#16) fun t => t.reg 0x3#4 == 0x07#8 && t.pc == 0x203#16 := by decide

/-- V41-1, V41-3. -/
theorem test_jp : runs 0x1234#16 s0 (·.pc == 0x234#16) ∧ runs 0x1FFF#16 s0 (·.pc == 0xFFF#16) := by decide

/-- V41-5. -/
theorem test_call : runs 0x2300#16 (stackAt s0 15 0#16) fun t =>
    t.entry 15 == 0x202#16 && t.sp == 16 && t.pc == 0x300#16 := by decide

/-- V41-6. -/
theorem test_call_overflow : faults 0x2300#16 (stackAt s0 16 0#16) .stackOverflow := by decide

/-- V41-7. -/
theorem test_ret : runs 0x00EE#16 (stackAt s0 1 0xABC#16) fun t =>
    t.pc == 0xABC#16 && t.sp == 0 && t.entry 0 == 0xABC#16 := by decide

/-- V41-8. -/
theorem test_ret_underflow : faults 0x00EE#16 s0 .stackUnderflow := by decide

/-- V41-10, V41-11. -/
theorem test_jpV0 : runs 0xBFFF#16 (s0.setReg 0x0#4 0xFF#8) (·.pc == 0x10FE#16) ∧
    runs 0xB300#16 ((s0.setReg 0x0#4 0x02#8).setReg 0x3#4 0xFF#8) (·.pc == 0x302#16) := by decide

/-- V41-12 to V41-15. -/
theorem test_skip_immediate :
    runs 0x332A#16 (s0.setReg 0x3#4 0x2A#8) (·.pc == 0x204#16) ∧
    runs 0x332A#16 (s0.setReg 0x3#4 0x2B#8) (·.pc == 0x202#16) ∧
    runs 0x432A#16 (s0.setReg 0x3#4 0x2A#8) (·.pc == 0x202#16) ∧
    runs 0x432A#16 (s0.setReg 0x3#4 0x2B#8) (·.pc == 0x204#16) := by decide

/-- V41-16, V41-17, V41-19, V41-20, V41-21. -/
theorem test_skip_registers :
    runs 0x5120#16 ((s0.setReg 0x1#4 7#8).setReg 0x2#4 7#8) (·.pc == 0x204#16) ∧
    runs 0x5120#16 ((s0.setReg 0x1#4 7#8).setReg 0x2#4 8#8) (·.pc == 0x202#16) ∧
    runs 0x9120#16 ((s0.setReg 0x1#4 7#8).setReg 0x2#4 8#8) (·.pc == 0x204#16) ∧
    runs 0x9120#16 ((s0.setReg 0x1#4 7#8).setReg 0x2#4 7#8) (·.pc == 0x202#16) ∧
    runs 0x9110#16 (s0.setReg 0x1#4 7#8) (·.pc == 0x202#16) := by decide

/-- V41-22. -/
theorem test_skip_at_the_top : runs 0x3000#16 (pcAt s0 0xFFC#16) fun t => t.pc == 0x1000#16 && !t.halt := by decide

/-- V1, V2 and VF set. -/
def abf (a b f : Byte) : State := ((s0.setReg 0x1#4 a).setReg 0x2#4 b).setReg Reg.vf f

/-- One Step leaves these in V1 and VF, and PC at the next word. -/
def leaves (w : Word) (s : State) (a f : Byte) : Bool :=
  runs w s fun t => t.reg 0x1#4 == a && t.reg Reg.vf == f && t.pc == 0x202#16

/-- V42-1, V42-2. -/
theorem test_load_immediate : leaves 0x61AB#16 s0 0xAB#8 0#8 ∧ leaves 0x6F07#16 s0 0#8 0x07#8 := by decide

/-- V42-3, V42-4. -/
theorem test_add_immediate : leaves 0x7101#16 (abf 0xFF#8 0#8 0#8) 0x00#8 0#8 ∧
    leaves 0x7101#16 (abf 0xFF#8 0#8 1#8) 0x00#8 1#8 := by decide

/-- V42-6 to V42-9. -/
theorem test_copy_and_logic : leaves 0x8120#16 (abf 0#8 0x9C#8 0#8) 0x9C#8 0#8 ∧
    leaves 0x8121#16 (abf 0xF0#8 0x0F#8 1#8) 0xFF#8 1#8 ∧ leaves 0x8122#16 (abf 0xF0#8 0x3C#8 1#8) 0x30#8 1#8 ∧
    leaves 0x8123#16 (abf 0xF0#8 0x3C#8 1#8) 0xCC#8 1#8 := by decide

/-- S8, V42-12, V42-13, V42-14, V42-17. -/
theorem test_add : leaves 0x8124#16 (abf 0xFA#8 0x0A#8 0#8) 0x04#8 1#8 ∧
    leaves 0x8124#16 (abf 0xFF#8 0x01#8 0#8) 0x00#8 1#8 ∧ leaves 0x8124#16 (abf 0xFE#8 0x01#8 1#8) 0xFF#8 0#8 ∧
    leaves 0x8114#16 (abf 0x80#8 0#8 0#8) 0x00#8 1#8 ∧ leaves 0x81F4#16 (abf 0xFF#8 0#8 1#8) 0x00#8 1#8 := by decide

/-- V42-15, V42-16: X = F, the flag survives. -/
theorem test_add_vf : leaves 0x8F24#16 (abf 0#8 0x20#8 0xF0#8) 0#8 0x01#8 ∧
    leaves 0x8F24#16 (abf 0#8 0x20#8 0x10#8) 0#8 0x00#8 := by decide

/-- V42-18, V42-20, V42-21, V42-22. -/
theorem test_sub : leaves 0x8125#16 (abf 0x05#8 0x07#8 0#8) 0xFE#8 0#8 ∧
    leaves 0x8125#16 (abf 0x07#8 0x07#8 0#8) 0x00#8 1#8 ∧ leaves 0x8125#16 (abf 0x00#8 0x01#8 1#8) 0xFF#8 0#8 ∧
    leaves 0x8F25#16 (abf 0#8 0x07#8 0x05#8) 0#8 0#8 := by decide

/-- V42-24, V42-25, V42-26, V42-28. -/
theorem test_shr : leaves 0x8126#16 (abf 0x05#8 0x99#8 0#8) 0x02#8 1#8 ∧
    leaves 0x8126#16 (abf 0x04#8 0x99#8 1#8) 0x02#8 0#8 ∧ leaves 0x8126#16 (abf 0xFF#8 0#8 0#8) 0x7F#8 1#8 ∧
    leaves 0x8F26#16 (abf 0#8 0#8 0x02#8) 0#8 0x00#8 := by decide

/-- V42-29, V42-30, V42-31. -/
theorem test_subn : leaves 0x8127#16 (abf 0x05#8 0x07#8 0#8) 0x02#8 1#8 ∧
    leaves 0x8127#16 (abf 0x07#8 0x05#8 1#8) 0xFE#8 0#8 ∧ leaves 0x8127#16 (abf 0x07#8 0x07#8 0#8) 0x00#8 1#8 := by
  decide

/-- V42-32, V42-33, V42-36. -/
theorem test_shl : leaves 0x812E#16 (abf 0x81#8 0x99#8 0#8) 0x02#8 1#8 ∧
    leaves 0x812E#16 (abf 0x40#8 0#8 1#8) 0x80#8 0#8 ∧ leaves 0x8F2E#16 (abf 0#8 0#8 0x7F#8) 0#8 0x00#8 := by decide

/-- V42-39: the byte is RND's, whatever it is; V42-38 is `Obligations.RandomIsMasked` with no bit of NN set. -/
theorem test_rnd : exec (.rndVxNN 0x1#4 0x0F#8) s0 =
    .next (s0.countRnd.setReg 0x1#4 (Config.rnd 0 &&& 0x0F#8)).done := rfl

/-- V43-1, V43-3, V43-4. -/
theorem test_index : runs 0xA123#16 (s0.setIndex 0xFFFF#16) (·.index == 0x0123#16) ∧
    runs 0xF21E#16 ((s0.setReg 0x2#4 1#8).setIndex 0x0FFF#16) (fun t => t.index == 0x1000#16 && !t.halt) ∧
    runs 0xF21E#16 ((s0.setReg 0x2#4 1#8).setIndex 0xFFFF#16) (fun t => t.index == 0#16 && t.reg Reg.vf == 0#8) := by
  decide

/-- V43-5, V43-8, V43-9. -/
theorem test_glyph : runs 0xF429#16 (s0.setReg 0x4#4 0x0A#8) (·.index == 0x0082#16) ∧
    runs 0xF429#16 (s0.setReg 0x4#4 0x10#8) (·.index == 0x00A0#16) ∧
    runs 0xF429#16 (s0.setReg 0x4#4 0xFF#8) (·.index == 0x054B#16) := by decide

/-- The bytes from an address. -/
def bytesFrom (t : State) (a n : Nat) : List Byte := (List.range n).map fun k => t.mem.read (a + k)

/-- S7, V43-15. -/
theorem test_bcd :
    runs 0xF133#16 ((s0.setReg 0x1#4 156#8).setIndex 0x300#16) (fun t =>
      bytesFrom t 0x2FF 5 == [0#8, 1#8, 5#8, 6#8, 0#8] && t.index == 0x300#16) ∧
    runs 0xF133#16 ((s0.setReg 0x1#4 0xFF#8).setIndex 0xFFD#16) (fun t => bytesFrom t 0xFFD 3 == [2#8, 5#8, 5#8]) := by
  decide

/-- V43-16. -/
theorem test_bcd_fault : faults 0xF133#16 (s0.setIndex 0xFFE#16) .memoryOutOfRange := by decide

/-- V43-17, V43-18. -/
theorem test_store :
    runs 0xF255#16 ((((s0.setReg 0x0#4 0x11#8).setReg 0x1#4 0x22#8).setReg 0x2#4 0x33#8).setIndex 0x400#16) (fun t =>
      bytesFrom t 0x3FF 5 == [0#8, 0x11#8, 0x22#8, 0x33#8, 0#8] && t.index == 0x400#16) ∧
    runs 0xF055#16 ((s0.setReg 0x0#4 0x11#8).setIndex 0xFFF#16) (fun t => t.mem.read 0xFFF == 0x11#8) := by decide

/-- V43-19. -/
theorem test_store_fault : faults 0xFF55#16 (s0.setIndex 0xFF1#16) .memoryOutOfRange := by decide

/-- V43-21, V43-24. -/
theorem test_load :
    runs 0xF165#16 ((bytesAt (s0.setReg 0x2#4 0x77#8) 0x400 [0xAA#8, 0xBB#8, 0xCC#8]).setIndex 0x400#16) (fun t =>
      t.reg 0x0#4 == 0xAA#8 && t.reg 0x1#4 == 0xBB#8 && t.reg 0x2#4 == 0x77#8 && t.index == 0x400#16) ∧
    runs 0xF165#16 (s0.setIndex 0x200#16) (fun t => t.reg 0x0#4 == 0xF1#8 && t.reg 0x1#4 == 0x65#8) := by decide

/-- V43-23. -/
theorem test_load_fault : faults 0xF065#16 (s0.setIndex 0x1000#16) .memoryOutOfRange := by decide

/-- The pixels (px, py) of a list read like this. -/
def pixels (t : State) (ps : List (Nat × Nat)) (b : Bool) : Bool := ps.all fun p => t.fb.get p.1 p.2 == b

/-- A state with one sprite byte at 0x300, and V0 and V1 given. -/
def sprite (row x y : Byte) : State :=
  (((bytesAt s0 0x300 [row]).setIndex 0x300#16).setReg 0x0#4 x).setReg 0x1#4 y

/-- V44-14. -/
theorem test_cls : runs 0x00E0#16 ((s0.setPlane (s0.fb.put 5 3 true)).setReg Reg.vf 1#8) fun t =>
    pixels t [(5, 3)] false && t.reg Reg.vf == 1#8 && t.pc == 0x202#16 := by decide

/-- V44-4, V44-5, V44-7: origin wraps, columns clip, collision. -/
theorem test_draw :
    runs 0xD011#16 (sprite 0x80#8 0x43#8 0x22#8) (fun t =>
      pixels t [(3, 2)] true && pixels t [(4, 2), (2, 2)] false && t.reg Reg.vf == 0#8) ∧
    runs 0xD011#16 (sprite 0xFF#8 0x3C#8 0#8) (fun t =>
      pixels t [(60, 0), (63, 0)] true && pixels t [(0, 0), (3, 0), (59, 0)] false && t.reg Reg.vf == 0#8) ∧
    runs 0xD011#16 ((sprite 0xC0#8 0#8 0#8).setPlane (s0.fb.put 0 0 true)) (fun t =>
      pixels t [(0, 0)] false && pixels t [(1, 0)] true && t.reg Reg.vf == 1#8) := by decide

/-- V44-3, V44-10, V44-12. -/
theorem test_draw_corners :
    runs 0xD010#16 ((s0.setIndex 0xFFFF#16).setReg Reg.vf 1#8) (fun t => t.reg Reg.vf == 0#8 && !t.halt) ∧
    faults 0xD013#16 ((s0.setIndex 0xFFE#16).setReg Reg.vf 1#8) .memoryOutOfRange ∧
    runs 0xDF01#16 ((sprite 0x80#8 0x02#8 0#8).setReg Reg.vf 0x05#8) (fun t =>
      pixels t [(5, 2)] true && t.reg Reg.vf == 0#8) := by decide

/-- V45-1 to V45-4a. -/
theorem test_key_skips :
    runs 0xE29E#16 (keys (s0.setReg 0x2#4 5#8) (some 5#4) none) (·.pc == 0x204#16) ∧
    runs 0xE29E#16 (keys (s0.setReg 0x2#4 5#8) none none) (·.pc == 0x202#16) ∧
    runs 0xE2A1#16 (keys (s0.setReg 0x2#4 5#8) (some 5#4) none) (·.pc == 0x202#16) ∧
    runs 0xE2A1#16 (keys (s0.setReg 0x2#4 5#8) (some 6#4) none) (·.pc == 0x204#16) ∧
    runs 0xE29E#16 (keys (s0.setReg 0x2#4 0x15#8) (some 5#4) none) (·.pc == 0x202#16) := by decide

/-- V45-5, V45-8. -/
theorem test_key_wait :
    runs 0xF30A#16 (keys (s0.setReg 0x3#4 0x99#8) (some 4#4) none) (fun t =>
      t.pc == 0x200#16 && t.wait && t.waitX == 3#4 && t.reg 0x3#4 == 0x99#8 && t.event == .waiting) ∧
    runs 0xF30A#16 (keys (s0.setReg 0x3#4 0x99#8) none (some 0xB#4)) (fun t =>
      t.pc == 0x202#16 && !t.wait && t.reg 0x3#4 == 0x0B#8 && t.keyNew == none) := by decide

/-- A core that waits for a key into V3 (V45-5). -/
def waiting (new : Option Key) : State := keys ((s0.withFetchWord 16 0xF30A).suspend 0x3#4) none new

/-- V45-6, V45-7. -/
theorem test_key_retry : coreStep (waiting none) = .next (waiting none) ∧ (
    match coreStep (waiting (some 7#4)) with
      | .next t => t.reg 0x3#4 == 0x07#8 && !t.wait && t.pc == 0x202#16 && t.keyNew == none && t.event == .none
      | _ => false) = true := ⟨rfl, by decide⟩

/-- V46-1, V46-2, V46-3. -/
theorem test_timer_registers : runs 0xF307#16 (s0.setDt 0x2C#8) (fun t => t.reg 0x3#4 == 0x2C#8 && t.dt == 0x2C#8) ∧
    runs 0xF315#16 (s0.setReg 0x3#4 0x3C#8) (·.dt == 0x3C#8) ∧
    runs 0xF318#16 (s0.setReg 0x3#4 0x0A#8) (·.st == 0x0A#8) := by decide

/-- V46-5, V46-6. -/
theorem test_tick : s0.tick.dt = 0#8 ∧ ((s0.setDt 0xFF#8).setSt 2#8).tick.tick.tick.dt = 0xFC#8 ∧
    ((s0.setDt 0xFF#8).setSt 2#8).tick.tick.tick.st = 0#8 ∧ (s0.setSt 1#8).toneOn = true ∧ s0.toneOn = false := by decide

/-! ### Witnesses: states and operands that meet the hypotheses of the statements -/

/-- `EncodeOfDecode`. -/
theorem witness_decoded : ∃ op i, decode op = .ok i := ⟨0x6A12#16, .ldVxNN 0xA 0x12, by decide⟩

/-- `UnrecognisedWordsAreTheTables`: a word of each row of R76, and one the table does not list. -/
theorem witness_unrecognised :
    ((Fields.ofWord 0x01E0#16).type = 0x0 ∧ (Fields.ofWord 0x01E0#16).nnn ≠ 0x0E0) ∧
    ((Fields.ofWord 0x5AB1#16).type = 0x5 ∧ (Fields.ofWord 0x5AB1#16).n ≠ 0) ∧
    ((Fields.ofWord 0x8ABF#16).type = 0x8 ∧ (Fields.ofWord 0x8ABF#16).n = 0xF#4) ∧
    ((Fields.ofWord 0x9ABF#16).type = 0x9 ∧ (Fields.ofWord 0x9ABF#16).n ≠ 0) ∧
    ((Fields.ofWord 0xE19F#16).type = 0xE ∧ (Fields.ofWord 0xE19F#16).nn = 0x9F#8) ∧
    ((Fields.ofWord 0xF175#16).type = 0xF ∧ (Fields.ofWord 0xF175#16).nn = 0x75#8) ∧ decode 0xF165#16 ≠ .error .truncated := by
  decide

/-- `DecodeFollowsTheSelectedRow`: a word that selects a row, one that selects none. -/
theorem witness_selection : (opcodeRows.any fun r => r.selects 0xD12A#16) = true ∧
    (opcodeRows.all fun r => !r.selects 0x5AB1#16) = true := by decide

/-- `StepRunsTheDecodedInstruction`. -/
theorem witness_step_runs : ∃ (s : State) (op : Word) (i : Instr), s.running ∧ s.fetch = some op ∧ decode op = .ok i :=
  ⟨s0.withFetchWord 16 0x6A12, 0x6A12#16, .ldVxNN 0xA 0x12, ⟨rfl, rfl⟩, by decide, by decide⟩

/-- `FetchIsTwoBytesHighFirst` and `FetchFaultHalts`, on both sides of the bound. -/
theorem witness_fetch : (pcAt s0 0xFFE#16).pc.toNat ≤ 0xFFE ∧ 0xFFE < (pcAt s0 0xFFF#16).pc.toNat ∧
    (pcAt s0 0xFFF#16).running := ⟨by decide, by decide, rfl, rfl⟩

/-- `UnrecognisedWordIsANoOp`: both clauses with hypotheses. -/
theorem witness_no_op : (s0.running ∧ s0.fetch = some 0x0000#16 ∧ decode 0x0000#16 = .error (.unrecognised 0x0000#16)) ∧
    (pcAt s0 0xFFF#16).running ∧ (pcAt s0 0xFFF#16).fetch = none ∧ ∃ t, coreStep (pcAt s0 0xFFF#16) = .next t :=
  ⟨⟨⟨rfl, rfl⟩, by decide, by decide⟩, ⟨rfl, rfl⟩, by decide, _, rfl⟩

/-- `HaltedStepChangesNothing` and the first clause of `HaltIsSetByAFaultAndKept`. -/
theorem witness_halted : halted.halt = true ∧ ∃ t, step halted = .next t := ⟨rfl, _, rfl⟩

/-- The third and fourth clauses of `HaltIsSetByAFaultAndKept`. -/
theorem witness_halting : (pcAt s0 0xFFF#16).halt = false ∧ ∃ t, step (pcAt s0 0xFFF#16) = .next t ∧ t.halt = true ∧
    t.event = .fault .memoryOutOfRange 0x0000#16 0xFFF#16 := ⟨rfl, _, rfl, rfl, rfl⟩

/-- `WaitingStepRetries`, both clauses. -/
theorem witness_waiting : (waiting none).halt = false ∧ (waiting none).wait = true ∧ (waiting none).keyNew = none ∧
    (waiting (some 7#4)).halt = false ∧ (waiting (some 7#4)).wait = true ∧ (waiting (some 7#4)).keyNew = some 7#4 := by
  decide

/-- `TimersOnlyFallWithoutAWrite`. -/
theorem witness_timers : ∃ t, step (s0.setDt 0xFF#8) = .next t := ⟨_, rfl⟩

/-- `ReturnPopsTheStack`, both clauses at their bounds, and 16 entries. -/
theorem witness_return : 0 < (stackAt s0 1 0xABC#16).sp.val ∧ 0 < (stackAt s0 16 0xABC#16).sp.val ∧ s0.sp.val = 0 := by
  decide

/-- `CallPushesAndJumps`, both clauses at their bounds. -/
theorem witness_call : s0.sp.val < 16 ∧ (stackAt s0 15 0#16).sp.val < 16 ∧ (stackAt s0 16 0#16).sp.val = 16 := by decide

/-- `CallThenReturnComesBack`, both clauses. -/
theorem witness_call_return : (∃ s t u : State, s.sp.val < 16 ∧ exec (.callNNN 0x300) s = .next t ∧ u.sp = t.sp ∧
    u.entry s.sp.val = t.entry s.sp.val) ∧ ∃ t, exec .cls s0 = .next t ∧ Instr.cls ≠ .ret ∧ ∀ nnn, Instr.cls ≠ .callNNN nnn :=
  ⟨⟨s0, _, _, by decide, rfl, rfl, rfl⟩, _, rfl, by decide, fun _ => by simp⟩

/-- The clause of `SkipsOnRegisters` about N, the clauses of the flag statements about X. -/
theorem witness_operands : (1 : BitVec 4) ≠ 0 ∧ (0xF : BitVec 4) ≠ 0 ∧ (0x0#4 : Reg) ≠ Reg.vf ∧ (0xE#4 : Reg) ≠ Reg.vf := by
  decide

/-- `RandomIsMasked`: a clear bit of NN. -/
theorem witness_mask : (0x0F#8).getLsbD 7 = false ∧ (0x0F#8).getLsbD 4 = false := by decide

/-- `DecimalDigitsAreStored`, `RegistersAreStored`, `RegistersAreLoaded`, at the last address in range, for one register
and for all. -/
theorem witness_in_range : (s0.setIndex 0xFFD#16).index.toNat + 2 ≤ 0xFFF ∧
    (s0.setIndex 0xFFF#16).index.toNat + (0x0#4).toNat ≤ 0xFFF ∧
    (s0.setIndex 0xFF0#16).index.toNat + (0xF#4).toNat ≤ 0xFFF := by decide

/-- `OutOfRangeAccessHalts`, each clause at the first address out of range. -/
theorem witness_out_of_range : (1#4 ≠ 0 ∧ (s0.setIndex 0x1000#16).index.toNat + (1#4).toNat - 1 > 0xFFF) ∧
    (s0.setIndex 0xFF1#16).index.toNat + (15#4).toNat - 1 ≤ 0xFFF ∧
    (s0.setIndex 0xFF2#16).index.toNat + (15#4).toNat - 1 > 0xFFF ∧ (s0.setIndex 0xFFE#16).index.toNat + 2 > 0xFFF ∧
    (s0.setIndex 0x1000#16).index.toNat + (0x0#4).toNat > 0xFFF ∧
    (s0.setIndex 0xFF1#16).index.toNat + (0xF#4).toNat > 0xFFF := by decide

/-- `OnlyThreeInstructionsChangeI`. -/
theorem witness_index_change : ∃ t, exec (.ldINNN 0x123) s0 = .next t ∧ t.index ≠ s0.index := ⟨_, rfl, by decide⟩

/-- `StoredRegistersAreLoadedBack`. -/
theorem witness_load_back : ∃ t u : State, (s0.setIndex 0xFF0#16).index.toNat + (0xF#4).toNat ≤ 0xFFF ∧
    exec (.ldMemVx 0xF) (s0.setIndex 0xFF0#16) = .next t ∧ u.mem = t.mem ∧ u.index = (s0.setIndex 0xFF0#16).index :=
  ⟨_, _, by decide, rfl, rfl, rfl⟩

/-- `StoreIsSeenByTheNextFetch`, at the last place where the store and the fetch fit. -/
theorem witness_self_modifying : 1 ≤ (0x1#4).toNat ∧
    ((pcAt s0 0xFFC#16).setIndex 0xFFE#16).pc.toNat + 2 + (0x1#4).toNat ≤ 0xFFF ∧
    ((pcAt s0 0xFFC#16).setIndex 0xFFE#16).index = ((pcAt s0 0xFFC#16).setIndex 0xFFE#16).pc + 2#16 := by decide

/-- `DrawXorsTheSprite`: no row anywhere, one row at the last byte, 15 rows up to it; a draw that collides, one that does
not. -/
theorem witness_draw : (0#4 = 0 ∨ (s0.setIndex 0xFFFF#16).index.toNat + (0#4).toNat - 1 ≤ 0xFFF) ∧
    (s0.setIndex 0xFFF#16).index.toNat + (1#4).toNat - 1 ≤ 0xFFF ∧
    (s0.setIndex 0xFF1#16).index.toNat + (15#4).toNat - 1 ≤ 0xFFF := by decide

theorem witness_collision : Collides ((sprite 0x80#8 0#8 0#8).setPlane (s0.fb.put 0 0 true)) 0x0 0x1 1 ∧
    ¬ Collides s0 0x0 0x1 0 :=
  ⟨⟨0, 0, by decide, by decide, by decide, by decide⟩, by
    rintro ⟨px, py, -, -, h, -⟩
    simp [spriteBit] at h
    omega⟩

/-- `DrawingTwiceRestoresThePlane`, with a sprite that shows and with one that does not. -/
theorem witness_draw_twice : (∃ s t u w : State, s.index.toNat + (1#4).toNat - 1 ≤ 0xFFF ∧
    exec (.drwVxVyN 0x0 0x1 1) s = .next t ∧ exec (.drwVxVyN 0x0 0x1 1) u = .next w ∧ u.fb = t.fb ∧
    u.reg 0x0#4 = s.reg 0x0#4 ∧ u.reg 0x1#4 = s.reg 0x1#4 ∧ u.index = s.index ∧
    (∀ k, k < (1#4).toNat → u.mem.read (u.index.toNat + k) = s.mem.read (s.index.toNat + k)) ∧
    SpriteShows s 0x0 0x1 1) ∧ ¬ SpriteShows s0 0x0 0x1 0 := by
  have h : ∀ s : State, s.index.toNat + (1#4).toNat - 1 ≤ 0xFFF → ∃ t, exec (.drwVxVyN 0x0 0x1 1) s = .next t ∧
      t = (s.drawSprite 0x0 0x1 ((List.range 1).map fun k => s.mem.read (s.index.toNat + k))).done :=
    fun s h => ⟨_, execDrwVxVyN_draws 0x0 0x1 1 (.inr h), rfl⟩
  obtain ⟨t, ht, rfl⟩ := h (sprite 0x80#8 0#8 0#8) (by decide)
  obtain ⟨w, hw, -⟩ := h ((sprite 0x80#8 0#8 0#8).drawSprite 0x0 0x1
    ((List.range 1).map fun k => (sprite 0x80#8 0#8 0#8).mem.read ((sprite 0x80#8 0#8 0#8).index.toNat + k))).done (by decide)
  refine ⟨⟨_, _, _, w, by decide, ht, hw, rfl, by decide, by decide, rfl, fun _ _ => rfl, 0, 0, by decide, by decide,
    by decide⟩, ?_⟩
  rintro ⟨px, py, -, -, h⟩
  simp [spriteBit] at h
  omega

/-- `SkipsOnTheCurrentKey` (the branch taken) and `KeyWaitTakesAKeyOrSuspends`, both clauses. -/
theorem witness_keys : (keys s0 (some 5#4) none).keyCur = some 5#4 ∧ s0.keyNew = none ∧
    (keys s0 none (some 7#4)).keyNew = some 7#4 := by decide

/-- `SoundTimerIsNeverRead`. -/
theorem witness_sound : ∃ t, exec .cls s0 = .next t ∧ ∀ x, Instr.cls ≠ .ldSTVx x := ⟨_, rfl, fun _ => by simp⟩

/-- `StepFaultsExactlyAsTabled`: each cause, and no fault. -/
theorem witness_step_fault : s0.running ∧ (∃ t, step s0 = .next t) ∧ stepFault s0 = none ∧
    stepFault (pcAt s0 0xFFF#16) = some .memoryOutOfRange ∧
    stepFault (s0.withFetchWord 16 0x00EE) = some .stackUnderflow ∧
    stepFault ((stackAt s0 16 0#16).withFetchWord 16 0x2300) = some .stackOverflow ∧
    stepFault ((s0.setIndex 0xFFE#16).withFetchWord 16 0xF033) = some .memoryOutOfRange :=
  ⟨⟨rfl, rfl⟩, ⟨_, rfl⟩, by decide, by decide, by decide, by decide, by decide⟩

/-- `InstructionChangesOnlyItsRow`, both clauses. -/
theorem witness_row : (∃ t, exec .cls s0 = .next t ∧ instrFault s0 .cls = none) ∧
    ∃ t, exec .ret s0 = .next t ∧ instrFault s0 .ret = some .stackUnderflow := ⟨⟨_, rfl, rfl⟩, _, rfl, by decide⟩

/-- `InstructionChangesOnlyItsRow`, completions of the four rows with a store or the stack, and the first byte, register
and entry outside each row. -/
theorem witness_row_bounds :
    instrFault (s0.setIndex 0xFFD#16) (.ldBVx 0x1) = none ∧ instrFault (s0.setIndex 0xFF0#16) (.ldMemVx 0xF) = none ∧
    instrFault (stackAt s0 1 0#16) .ret = none ∧ instrFault (stackAt s0 15 0#16) (.callNNN 0x300) = none ∧
    ¬ (0xFFD ≤ 0xFFC ∧ 0xFFC < 0xFFD + storedBytes (.ldBVx 0x1)) ∧
    ¬ (0xFF0 ≤ 0x1000 ∧ 0x1000 < 0xFF0 + storedBytes (.ldMemVx 0xF)) ∧
    ¬ entryWrites (stackAt s0 15 0#16) (.callNNN 0x300) 14 ∧ ¬ entryWrites (stackAt s0 1 0#16) .ret 0 ∧
    ¬ regWrites (.ldVxMem 0xE) 0xF :=
  ⟨by decide, by decide, by decide, by decide, by decide, by decide, fun h : (14 : Nat) = 15 => absurd h (by decide), id,
    fun h : (15 : Nat) ≤ 14 => absurd h (by decide)⟩

/-- `VFIsWrittenOnlyAsListed`: a flag, an immediate, a register, a load. -/
theorem witness_vf : (∃ t, exec (.addVxVy 0x1 0x2) (abf 0xFF#8 1#8 0#8) = .next t ∧ t.reg Reg.vf ≠ 0#8) ∧
    (∃ t, exec (.ldVxNN 0xF 0x07) s0 = .next t ∧ t.reg Reg.vf ≠ s0.reg Reg.vf) ∧
    (∃ t, exec (.ldVxVy 0xF 0x1) (abf 9#8 0#8 0#8) = .next t ∧ t.reg Reg.vf ≠ 0#8) ∧
    (∃ t, exec (.ldVxDT 0xF) (s0.setDt 5#8) = .next t ∧ t.reg Reg.vf ≠ (s0.setDt 5#8).reg Reg.vf) :=
  ⟨⟨_, rfl, by decide⟩, ⟨_, rfl, by decide⟩, ⟨_, rfl, by decide⟩, _, rfl, by decide⟩

/-- A state about to store V1 = 255 in decimal at 0x300. -/
def storing : State := ((s0.setReg 0x1#4 0xFF#8).setIndex 0x300#16).withFetchWord 16 0xF133

/-- `MemoryChangesOnlyByTwoStores`. -/
theorem witness_memory_change : ∃ t, step storing = .next t ∧ t.mem.read 0x300 ≠ storing.mem.read 0x300 :=
  ⟨_, rfl, by decide⟩

/-- A state with a pixel on, about to clear the plane. -/
def clearing : State := (s0.setPlane (s0.fb.put 5 3 true)).withFetchWord 16 0x00E0

/-- `PlaneChangesOnlyByClearOrDraw`. -/
theorem witness_plane_change : ∃ t, step clearing = .next t ∧ t.fb ≠ clearing.fb := by
  refine ⟨_, rfl, fun h => ?_⟩
  have : Plane.get Plane.clear 5 3 = Plane.get clearing.fb 5 3 := congrArg (·.get 5 3) h
  revert this
  decide

/-- `StepKeepsTheInvariant`: a running, a halted and a waiting state that meet it, each with a next state. -/
theorem witness_invariant_running : Inv s0 ∧ ∃ t, step s0 = .next t :=
  ⟨⟨by decide, by decide, fun _ h => absurd h (Nat.not_lt_zero _), by decide, fun _ => ⟨rfl, rfl, rfl⟩,
    fun h => (by cases h), fun h => (by cases h)⟩, _, rfl⟩

theorem witness_invariant_halted : Inv (pcAt s0 0xFFF#16).fetchFault :=
  ⟨by decide, by decide, fun _ h => absurd h (Nat.not_lt_zero _), by decide, fun h => (by cases h),
    fun _ => ⟨by decide, rfl, by decide⟩, fun h => (by cases h)⟩

theorem witness_invariant_waiting : Inv (waiting none) :=
  ⟨by decide, by decide, fun _ h => absurd h (Nat.not_lt_zero _), by decide, fun _ => ⟨rfl, rfl, rfl⟩,
    fun h => (by cases h), fun _ => by decide⟩

/-- `LaunchPlacesTheImage`: the premises at both ends, and each of them broken. -/
theorem witness_launch : (0x200 ≤ (Launch.mk 0x200 [0x12#8]).loadAddr) ∧
    ((Launch.mk 0xFFE [0x12#8, 0x00#8]).loadAddr ≤ 0xFFE ∧
      (Launch.mk 0xFFE [0x12#8, 0x00#8]).loadAddr + (Launch.mk 0xFFE [0x12#8, 0x00#8]).image.length ≤ 0x1000) ∧
    ¬ 0x200 ≤ (Launch.mk 0x1FF []).loadAddr ∧ ¬ (Launch.mk 0xFFF []).loadAddr ≤ 0xFFE ∧
    ¬ (Launch.mk 0xFFE [0#8, 0#8, 0#8]).loadAddr + (Launch.mk 0xFFE [0#8, 0#8, 0#8]).image.length ≤ 0x1000 := by decide

/-- `ResetStateIsAsTabled`: addresses on both sides of the font. -/
theorem witness_reset_bytes : (0x04F : Nat) < 0x050 ∧ (0x0A0 : Nat) ≤ 0x0A0 ∧ s0.mem.read 0x04F = 0#8 ∧
    s0.mem.read 0x0A0 = 0#8 ∧ s0.mem.read 0x050 = 0xF0#8 ∧ s0.mem.read 0x09F = 0x80#8 := by decide

end Sys2Proof.Tests
end

section
/-!
PROOFS. The scope of the machine (00_scope.md): the events between Steps (R6), and the only instructions that store to
memory (R7).
-/

namespace Sys2Proof.Machine

/-! ### The events between Steps (R6, R160, R174) -/

@[simp] theorem countDown_zero (t : Byte) : countDown t 0 = t := by
  apply BitVec.eq_of_toNat_eq
  rw [countDown_toNat, Nat.sub_zero]

/-- Events applied in order: the timers fall by the number of Ticks, InputState is the last update, and no other field
changes. -/
theorem State.foldl_applyEvent (es : List EnvEvent) (s : State) :
    es.foldl State.applyEvent s =
      { s with
        dt := countDown s.dt (tickCount es)
        st := countDown s.st (tickCount es)
        keyCur := (lastInput (s.keyCur, s.keyNew) es).1
        keyNew := (lastInput (s.keyCur, s.keyNew) es).2 } := by
  induction es generalizing s with
  | nil => simp [tickCount, lastInput]
  | cons e es ih =>
    rw [List.foldl_cons, ih]
    cases e with
    | tick => simp only [State.applyEvent, State.tick_eq, countDown_countDown, tickCount, lastInput]
    | input cur new => rfl

/-- Settles O8: a list of events applied in order has the closed form that `State.deliver` writes field by field. -/
theorem eventsArriveOneAfterAnother : Obligations.EventsArriveOneAfterAnother := by
  intro s
  rw [State.foldl_applyEvent]
  rfl

/-! ### What an instruction stores (R7, R36) -/

theorem keepsMemOutside_of_mem_eq {s t : State} (h : t.mem = s.mem) (lo n : Nat) : KeepsMemOutside lo n s t :=
  fun a _ => by rw [h]

/-- Bytes written to memory change nothing outside them. -/
theorem keepsMemOutside_of_writeBytes {s t : State} {lo : Nat} {bs : List Byte}
    (h : t.mem = s.mem.writeBytes lo bs) : KeepsMemOutside lo bs.length s t :=
  fun a ha => by rw [h, Memory.read_writeBytes_outside bs s.mem lo a ha]

theorem execRet_mem {s t : State} (h : execRet s = .next t) : t.mem = s.mem := by
  rcases Nat.eq_zero_or_pos s.sp.val with h0 | h0
  · rw [execRet_underflow h0] at h
    cases h
    rfl
  · rw [execRet_pops h0] at h
    cases h
    rfl

theorem execCallNNN_mem {nnn : BitVec 12} {s t : State} (h : execCallNNN nnn s = .next t) : t.mem = s.mem := by
  rcases Nat.lt_or_ge s.sp.val 16 with hs | hs
  · rw [execCallNNN_pushes nnn hs] at h
    cases h
    rfl
  · rw [execCallNNN_overflow nnn (by omega)] at h
    cases h
    rfl

theorem execDrwVxVyN_mem {x y : Reg} {n : BitVec 4} {s t : State} (h : execDrwVxVyN x y n s = .next t) :
    t.mem = s.mem := by
  unfold execDrwVxVyN at h
  cases hr : s.spriteRows n.toNat with
  | none =>
    rw [hr] at h
    cases h
    rfl
  | some rows =>
    rw [hr] at h
    cases h
    rfl

theorem execLdVxMem_mem {x : Reg} {s t : State} (h : execLdVxMem x s = .next t) : t.mem = s.mem := by
  rcases Nat.lt_or_ge 0xFFF (s.index.toNat + x.toNat) with hx | hx
  · rw [execLdVxMem_faults x hx] at h
    cases h
    rfl
  · rw [execLdVxMem_loads x hx] at h
    cases h
    rfl

theorem execLdVxK_mem {x : Reg} {s t : State} (h : execLdVxK x s = .next t) : t.mem = s.mem := by
  unfold execLdVxK at h
  rw [State.keyConsume_eq] at h
  cases hk : s.keyNew with
  | none =>
    rw [hk] at h
    cases h
    rfl
  | some k =>
    rw [hk] at h
    cases h
    rfl

/-- An instruction whose row of R36 lists no byte of memory leaves memory as it is. -/
theorem exec_mem_of_storedBytes_eq_zero {i : Instr} {s t : State} (h : exec i s = .next t) (hi : storedBytes i = 0) :
    t.mem = s.mem := by
  cases i with
  | ldBVx x => cases hi
  | ldMemVx x => cases hi
  | ret => exact execRet_mem h
  | callNNN nnn => exact execCallNNN_mem h
  | drwVxVyN x y n => exact execDrwVxVyN_mem h
  | ldVxMem x => exact execLdVxMem_mem h
  | ldVxK x => exact execLdVxK_mem h
  | _ =>
    cases h
    rfl

theorem execLdBVx_keepsMemOutside {x : Reg} {s t : State} (h : execLdBVx x s = .next t) :
    KeepsMemOutside s.base 3 s t := by
  rcases Nat.lt_or_ge 0xFFF (s.index.toNat + 2) with hx | hx
  · rw [execLdBVx_faults x hx] at h
    cases h
    exact keepsMemOutside_of_mem_eq rfl _ _
  · rw [execLdBVx_stores x hx] at h
    cases h
    exact keepsMemOutside_of_writeBytes (bs := bcdDigits (s.reg x)) rfl

theorem execLdMemVx_keepsMemOutside {x : Reg} {s t : State} (h : execLdMemVx x s = .next t) :
    KeepsMemOutside s.base (x.toNat + 1) s t := by
  rcases Nat.lt_or_ge 0xFFF (s.index.toNat + x.toNat) with hx | hx
  · rw [execLdMemVx_faults x hx] at h
    cases h
    exact keepsMemOutside_of_mem_eq rfl _ _
  · rw [execLdMemVx_stores x hx] at h
    cases h
    rw [← State.regsTo_length s x]
    exact keepsMemOutside_of_writeBytes rfl

/-- An instruction changes no byte of memory but the ones from I on that its row of R36 lists, whether it completes or
faults. -/
theorem exec_keepsMemOutside {i : Instr} {s t : State} (h : exec i s = .next t) :
    KeepsMemOutside s.base (storedBytes i) s t := by
  rcases Nat.eq_zero_or_pos (storedBytes i) with hi | hi
  · exact keepsMemOutside_of_mem_eq (exec_mem_of_storedBytes_eq_zero h hi) _ _
  · cases i with
    | ldBVx x => exact execLdBVx_keepsMemOutside h
    | ldMemVx x => exact execLdMemVx_keepsMemOutside h
    | _ => cases hi

/-- The only instructions with stored bytes are FX33, with three, and FX55, with X + 1. -/
theorem storedBytes_pos_cases {i : Instr} (h : 0 < storedBytes i) :
    ∃ x, (i = .ldBVx x ∧ storedBytes i = 3) ∨ (i = .ldMemVx x ∧ storedBytes i = x.toNat + 1) := by
  cases i with
  | ldBVx x => exact ⟨x, .inl ⟨rfl, rfl⟩⟩
  | ldMemVx x => exact ⟨x, .inr ⟨rfl, rfl⟩⟩
  | _ => cases h

/-! ### What a Step stores (R90) -/

@[simp] theorem State.keyWaitRetry_mem (s : State) : s.keyWaitRetry.mem = s.mem := by
  cases hk : s.keyNew with
  | none => rw [State.keyWaitRetry_none hk]; rfl
  | some k => rw [State.keyWaitRetry_some hk]; rfl

/-- A Step that runs no instruction leaves memory as it is. -/
theorem coreStep_mem_eq_or_exec {s t : State} (h : coreStep s = .next t) :
    t.mem = s.mem ∨ ∃ op i, s.fetch = some op ∧ decode op = .ok i ∧ exec i s = .next t := by
  obtain ⟨-, rfl⟩ | ⟨-, -, rfl⟩ | ⟨-, -, rfl⟩ | ⟨-, op, -, -, rfl⟩ | ⟨-, hexec⟩ := coreStep_cases h
  · exact .inl (State.haltedStep_mem s)
  · exact .inl (State.keyWaitRetry_mem s)
  · exact .inl (State.raise_mem s _ _)
  · exact .inl (State.unrecognised_mem s op)
  · exact .inr hexec

/-- Settles O53: the Step runs the instruction at PC, the changed byte is one of its stored bytes, and only FX33 and
FX55 have any. -/
theorem memoryChangesOnlyByTwoStores : Obligations.MemoryChangesOnlyByTwoStores := by
  intro s t a hstep hne
  obtain hmem | ⟨op, i, hfetch, hdec, hexec⟩ := coreStep_mem_eq_or_exec hstep
  · exact absurd (congrArg (·.read a) hmem) hne
  · have hin : s.index.toNat ≤ a ∧ a < s.index.toNat + storedBytes i := by
      by_contra hout
      exact hne (exec_keepsMemOutside hexec a hout)
    obtain ⟨x, ⟨rfl, hn⟩ | ⟨rfl, hn⟩⟩ := storedBytes_pos_cases (i := i) (by omega)
    · exact ⟨op, x, State.deliver_fetch s ▸ hfetch, hin.1, .inl ⟨hdec, by omega⟩⟩
    · exact ⟨op, x, State.deliver_fetch s ▸ hfetch, hin.1, .inr ⟨hdec, by omega⟩⟩

end Sys2Proof.Machine
end

section
/-!
PROOFS. The word of a decoded instruction (30_encoding.md R71, R72, R75): it is put together again from its fields, so
that the word a fault records is the word that was fetched.
-/

namespace Sys2Proof

/-! ### A word is its fields, put together (R71) -/

theorem type_append_nnn (op : Word) : (Fields.ofWord op).type ++ (Fields.ofWord op).nnn = op :=
  BitVec.extractLsb'_append_extractLsb' (w := 4) (len := 12)

theorem type_append_x (op : Word) : (Fields.ofWord op).type ++ (Fields.ofWord op).x = op.extractLsb' 8 8 :=
  BitVec.extractLsb'_append_extractLsb'_eq_extractLsb' rfl

theorem type_append_x_append_nn (op : Word) :
    (Fields.ofWord op).type ++ (Fields.ofWord op).x ++ (Fields.ofWord op).nn = op := by
  rw [type_append_x]
  exact BitVec.extractLsb'_append_extractLsb' (w := 8) (len := 8)

theorem type_append_x_append_y_append_n (op : Word) :
    (Fields.ofWord op).type ++ (Fields.ofWord op).x ++ (Fields.ofWord op).y ++ (Fields.ofWord op).n = op := by
  have hxy : op.extractLsb' 8 8 ++ (Fields.ofWord op).y = op.extractLsb' 4 12 :=
    BitVec.extractLsb'_append_extractLsb'_eq_extractLsb' rfl
  rw [type_append_x, hxy]
  exact BitVec.extractLsb'_append_extractLsb' (w := 12) (len := 4)

/-! ### What the fixed bits of a row say of the fields (R74, R75) -/

theorem type_of_mask {op : Word} {t : BitVec 4} (h : op &&& 0xF000#16 = t ++ 0#12) : (Fields.ofWord op).type = t := by
  have hand := and_nnn (Fields.ofWord op).type (Fields.ofWord op).nnn
  rw [type_append_nnn, h] at hand
  exact ((BitVec.append_left_inj 0#12).1 hand).symm

theorem type_nn_of_mask {op : Word} {t : BitVec 4} {b : Byte} (h : op &&& 0xF0FF#16 = t ++ 0#4 ++ b) :
    (Fields.ofWord op).type = t ∧ (Fields.ofWord op).nn = b := by
  have hand := and_x (Fields.ofWord op).type (Fields.ofWord op).x (Fields.ofWord op).nn
  rw [type_append_x_append_nn, h] at hand
  have htype := congrArg (fun w => (Fields.ofWord w).type) hand
  have hnn := congrArg (fun w => (Fields.ofWord w).nn) hand
  simp only [type_of_xnn, nn_of_xnn] at htype hnn
  exact ⟨htype.symm, hnn.symm⟩

theorem type_n_of_mask {op : Word} {t n : BitVec 4} (h : op &&& 0xF00F#16 = t ++ 0#4 ++ 0#4 ++ n) :
    (Fields.ofWord op).type = t ∧ (Fields.ofWord op).n = n := by
  have hand := and_xy (Fields.ofWord op).type (Fields.ofWord op).x (Fields.ofWord op).y (Fields.ofWord op).n
  rw [type_append_x_append_y_append_n, h] at hand
  have htype := congrArg (fun w => (Fields.ofWord w).type) hand
  have hn := congrArg (fun w => (Fields.ofWord w).n) hand
  simp only [type_of_xyn, n_of_xyn] at htype hn
  exact ⟨htype.symm, hn.symm⟩

/-! ### The word of each format, from the fixed bits and the free fields (R72) -/

theorem word_nnn {op : Word} (t : BitVec 4) (h : op &&& 0xF000#16 = t ++ 0#12) : t ++ (Fields.ofWord op).nnn = op := by
  rw [← type_of_mask h, type_append_nnn]

theorem word_xnn {op : Word} (t : BitVec 4) (h : op &&& 0xF000#16 = t ++ 0#12) :
    t ++ (Fields.ofWord op).x ++ (Fields.ofWord op).nn = op := by
  rw [← type_of_mask h, type_append_x_append_nn]

theorem word_xyn {op : Word} (t : BitVec 4) (h : op &&& 0xF000#16 = t ++ 0#12) :
    t ++ (Fields.ofWord op).x ++ (Fields.ofWord op).y ++ (Fields.ofWord op).n = op := by
  rw [← type_of_mask h, type_append_x_append_y_append_n]

theorem word_x {op : Word} (t : BitVec 4) (b : Byte) (h : op &&& 0xF0FF#16 = t ++ 0#4 ++ b) :
    t ++ (Fields.ofWord op).x ++ b = op := by
  obtain ⟨ht, hb⟩ := type_nn_of_mask h
  rw [← ht, ← hb, type_append_x_append_nn]

theorem word_xy {op : Word} (t n : BitVec 4) (h : op &&& 0xF00F#16 = t ++ 0#4 ++ 0#4 ++ n) :
    t ++ (Fields.ofWord op).x ++ (Fields.ofWord op).y ++ n = op := by
  obtain ⟨ht, hn⟩ := type_n_of_mask h
  rw [← ht, ← hn, type_append_x_append_y_append_n]

/-! ### The rows of the opcode map (R75) -/

/-- The instruction a row builds from a word that has the row's fixed bits is encoded as that word. -/
def Row.KeepsTheWord (r : Row) : Prop := ∀ op : Word, op &&& r.mask = r.pat → encode (r.build (Fields.ofWord op)) = op

theorem keepsTheWord_of_exact {pat : Word} {i : Instr} (h : encode i = pat) :
    Row.KeepsTheWord ⟨0xFFFF#16, pat, fun _ => i⟩ := by
  intro op hop
  have hall : op &&& 0xFFFF#16 = op := BitVec.and_allOnes
  exact h.trans (hop.symm.trans hall)

theorem rowsLow_keepTheWord : ∀ r ∈ rowsLow, r.KeepsTheWord := by
  simp only [rowsLow, List.forall_mem_cons, List.not_mem_nil, false_imp_iff, implies_true, and_true]
  exact ⟨keepsTheWord_of_exact rfl, keepsTheWord_of_exact rfl, fun _ => word_nnn 0x1#4, fun _ => word_nnn 0x2#4,
    fun _ => word_xnn 0x3#4, fun _ => word_xnn 0x4#4, fun _ => word_xy 0x5#4 0x0#4, fun _ => word_xnn 0x6#4,
    fun _ => word_xnn 0x7#4⟩

theorem rowsAlu_keepTheWord : ∀ r ∈ rowsAlu, r.KeepsTheWord := by
  simp only [rowsAlu, List.forall_mem_cons, List.not_mem_nil, false_imp_iff, implies_true, and_true]
  exact ⟨fun _ => word_xy 0x8#4 0x0#4, fun _ => word_xy 0x8#4 0x1#4, fun _ => word_xy 0x8#4 0x2#4,
    fun _ => word_xy 0x8#4 0x3#4, fun _ => word_xy 0x8#4 0x4#4, fun _ => word_xy 0x8#4 0x5#4,
    fun _ => word_xy 0x8#4 0x6#4, fun _ => word_xy 0x8#4 0x7#4, fun _ => word_xy 0x8#4 0xE#4,
    fun _ => word_xy 0x9#4 0x0#4⟩

theorem rowsMid_keepTheWord : ∀ r ∈ rowsMid, r.KeepsTheWord := by
  simp only [rowsMid, List.forall_mem_cons, List.not_mem_nil, false_imp_iff, implies_true, and_true]
  exact ⟨fun _ => word_nnn 0xA#4, fun _ => word_nnn 0xB#4, fun _ => word_xnn 0xC#4, fun _ => word_xyn 0xD#4,
    fun _ => word_x 0xE#4 0x9E#8, fun _ => word_x 0xE#4 0xA1#8⟩

theorem rowsHigh_keepTheWord : ∀ r ∈ rowsHigh, r.KeepsTheWord := by
  simp only [rowsHigh, List.forall_mem_cons, List.not_mem_nil, false_imp_iff, implies_true, and_true]
  exact ⟨fun _ => word_x 0xF#4 0x07#8, fun _ => word_x 0xF#4 0x0A#8, fun _ => word_x 0xF#4 0x15#8,
    fun _ => word_x 0xF#4 0x18#8, fun _ => word_x 0xF#4 0x1E#8, fun _ => word_x 0xF#4 0x29#8,
    fun _ => word_x 0xF#4 0x33#8, fun _ => word_x 0xF#4 0x55#8, fun _ => word_x 0xF#4 0x65#8⟩

theorem opcodeRows_keepTheWord : ∀ r ∈ opcodeRows, r.KeepsTheWord := by
  simp only [opcodeRows, List.forall_mem_append]
  exact ⟨⟨⟨rowsLow_keepTheWord, rowsAlu_keepTheWord⟩, rowsMid_keepTheWord⟩, rowsHigh_keepTheWord⟩

/-- The word of the instruction that a word decodes to is that word. -/
theorem encode_of_decode {op : Word} {i : Instr} (h : decode op = .ok i) : encode i = op := by
  obtain ⟨r, hr, hsel, rfl⟩ := decode_cases h
  exact opcodeRows_keepTheWord r hr op (by simpa [Row.selects] using hsel)

end Sys2Proof
end

section
/-!
PROOFS. What an instruction can do, said once for all instructions: it raises its fault (60_exceptions.md R182, R183) or
completes, and a completion changes only what its row of 10_state.md R36 lists.
-/

namespace Sys2Proof.Machine

/-! ### The two ways of an instruction (R182, R183) -/

/-- An instruction that faults by the tables takes the fault with its own word. -/
theorem exec_of_instrFault_eq_some {i : Instr} {s : State} {c : Cause} (hf : instrFault s i = some c) :
    exec i s = .next (s.raise c (encode i)) := by
  cases i with
  | ret =>
    obtain ⟨hs, rfl⟩ := Option.ite_some_none_eq_some.1 hf
    exact execRet_underflow hs
  | callNNN nnn =>
    obtain ⟨hs, rfl⟩ := Option.ite_some_none_eq_some.1 hf
    exact execCallNNN_overflow nnn hs
  | drwVxVyN x y n =>
    obtain ⟨⟨hn, hx⟩, rfl⟩ := Option.ite_some_none_eq_some.1 hf
    exact execDrwVxVyN_faults x y n hn hx
  | ldBVx x =>
    obtain ⟨hx, rfl⟩ := Option.ite_some_none_eq_some.1 hf
    exact execLdBVx_faults x hx
  | ldMemVx x =>
    obtain ⟨hx, rfl⟩ := Option.ite_some_none_eq_some.1 hf
    exact execLdMemVx_faults x hx
  | ldVxMem x =>
    obtain ⟨hx, rfl⟩ := Option.ite_some_none_eq_some.1 hf
    exact execLdVxMem_faults x hx
  | _ => cases hf

/-- The tables name a cause. -/
theorem instrFault_ne_some_none (i : Instr) (s : State) : instrFault s i ≠ some .none := by
  intro hf
  cases i with
  | ret | callNNN nnn | drwVxVyN x y n | ldBVx x | ldMemVx x | ldVxMem x =>
    obtain ⟨-, hc⟩ := Option.ite_some_none_eq_some.1 hf
    cases hc
  | _ => cases hf

/-- An instruction takes its fault, or the tables give it none. -/
theorem exec_cases {i : Instr} {s t : State} (h : exec i s = .next t) :
    (∃ c, c ≠ .none ∧ instrFault s i = some c ∧ t = s.raise c (encode i)) ∨ instrFault s i = none := by
  cases hf : instrFault s i with
  | none => exact .inr rfl
  | some c =>
    rw [exec_of_instrFault_eq_some hf] at h
    cases h
    refine .inl ⟨c, ?_, rfl, rfl⟩
    rintro rfl
    exact instrFault_ne_some_none i s hf

/-! ### The instructions that can fault, when they complete -/

theorem execRet_completes {s t : State} (h : exec .ret s = .next t) (hf : instrFault s .ret = none) :
    0 < s.sp.val ∧ t = { s with sp := ⟨s.sp.val - 1, by omega⟩ }.jump (s.entry (s.sp.val - 1)) := by
  have hs : 0 < s.sp.val := Nat.pos_of_ne_zero fun hz => by cases ite_eq_right_iff.1 hf hz
  rw [show exec .ret s = execRet s from rfl, execRet_pops hs] at h
  cases h
  exact ⟨hs, rfl⟩

theorem execCallNNN_completes {nnn : BitVec 12} {s t : State} (h : exec (.callNNN nnn) s = .next t)
    (hf : instrFault s (.callNNN nnn) = none) :
    ∃ hs : s.sp.val < 16, t = { s with
      stack := s.stack.set s.sp.val (s.pc + 2#16) hs
      sp := ⟨s.sp.val + 1, by omega⟩ }.jump (zextAddr nnn) := by
  have hne : s.sp.val ≠ 16 := by simpa [instrFault] using hf
  have hs : s.sp.val < 16 := by omega
  rw [show exec (.callNNN nnn) s = execCallNNN nnn s from rfl, execCallNNN_pushes nnn hs] at h
  cases h
  exact ⟨hs, rfl⟩

theorem execDrwVxVyN_completes {x y : Reg} {n : BitVec 4} {s t : State} (h : exec (.drwVxVyN x y n) s = .next t)
    (hf : instrFault s (.drwVxVyN x y n) = none) :
    (n = 0 ∨ s.index.toNat + n.toNat - 1 ≤ 0xFFF) ∧
      t = (s.drawSprite x y ((List.range n.toNat).map fun k => s.mem.read (s.index.toNat + k))).done := by
  have hr : ¬ (1 ≤ n.toNat ∧ s.index.toNat + n.toNat - 1 > 0xFFF) := fun hr => by cases ite_eq_right_iff.1 hf hr
  have hin : n = 0 ∨ s.index.toNat + n.toNat - 1 ≤ 0xFFF := by bv_omega
  rw [show exec (.drwVxVyN x y n) s = execDrwVxVyN x y n s from rfl, execDrwVxVyN_draws x y n hin] at h
  cases h
  exact ⟨hin, rfl⟩

theorem execLdBVx_completes {x : Reg} {s t : State} (h : exec (.ldBVx x) s = .next t)
    (hf : instrFault s (.ldBVx x) = none) :
    s.index.toNat + 2 ≤ 0xFFF ∧ t = (s.setMem (s.mem.writeBytes s.index.toNat (bcdDigits (s.reg x)))).done := by
  have hx : s.index.toNat + 2 ≤ 0xFFF := by simpa [instrFault] using hf
  rw [show exec (.ldBVx x) s = execLdBVx x s from rfl, execLdBVx_stores x hx] at h
  cases h
  exact ⟨hx, rfl⟩

theorem execLdMemVx_completes {x : Reg} {s t : State} (h : exec (.ldMemVx x) s = .next t)
    (hf : instrFault s (.ldMemVx x) = none) :
    s.index.toNat + x.toNat ≤ 0xFFF ∧ t = (s.setMem (s.mem.writeBytes s.index.toNat (s.regsTo x))).done := by
  have hx : s.index.toNat + x.toNat ≤ 0xFFF := by simpa [instrFault] using hf
  rw [show exec (.ldMemVx x) s = execLdMemVx x s from rfl, execLdMemVx_stores x hx] at h
  cases h
  exact ⟨hx, rfl⟩

theorem execLdVxMem_completes {x : Reg} {s t : State} (h : exec (.ldVxMem x) s = .next t)
    (hf : instrFault s (.ldVxMem x) = none) :
    s.index.toNat + x.toNat ≤ 0xFFF ∧
      t = (s.setRegs ((List.range (x.toNat + 1)).map fun k => s.mem.read (s.index.toNat + k))).done := by
  have hx : s.index.toNat + x.toNat ≤ 0xFFF := by simpa [instrFault] using hf
  rw [show exec (.ldVxMem x) s = execLdVxMem x s from rfl, execLdVxMem_loads x hx] at h
  cases h
  exact ⟨hx, rfl⟩

/-! ### FX0A (R163) -/

theorem execLdVxK_suspends {s : State} (x : Reg) (h : s.keyNew = none) :
    execLdVxK x s = .next (s.dropKey.suspend x) := by
  simp [execLdVxK, h]

theorem execLdVxK_takes {s : State} (x : Reg) {k : Key} (h : s.keyNew = some k) :
    execLdVxK x s = .next (s.dropKey.setReg x (zextKey k)).done := by
  simp [execLdVxK, h]

theorem execLdVxK_cases {x : Reg} {s t : State} (h : exec (.ldVxK x) s = .next t) :
    (s.keyNew = none ∧ t = s.dropKey.suspend x) ∨
    ∃ k, s.keyNew = some k ∧ t = (s.dropKey.setReg x (zextKey k)).done := by
  cases hk : s.keyNew with
  | none =>
    rw [show exec (.ldVxK x) s = execLdVxK x s from rfl, execLdVxK_suspends x hk] at h
    cases h
    exact .inl ⟨rfl, rfl⟩
  | some k =>
    rw [show exec (.ldVxK x) s = execLdVxK x s from rfl, execLdVxK_takes x hk] at h
    cases h
    exact .inr ⟨k, rfl, rfl⟩

/-! ### How a completed instruction ends (R92 to R94) -/

theorem State.skipIf_endsAt (s : State) (b : Bool) :
    EndsAt (s.skipIf b) (s.pc + 2#16) ∨ EndsAt (s.skipIf b) (s.pc + 2#16 + 2#16) := by
  cases b with
  | false => exact .inl ⟨rfl, rfl⟩
  | true => exact .inr ⟨rfl, rfl⟩

/-- A completed instruction waits where it is, or ends without an event at the next word, past it, at NNN, at NNN plus a
register, or at a live stack entry. -/
theorem exec_ends_cases {i : Instr} {s t : State} (h : exec i s = .next t) (hf : instrFault s i = none) :
    (t.pc = s.pc ∧ t.event = .waiting) ∨ (EndsAt t (s.pc + 2#16) ∨ EndsAt t (s.pc + 2#16 + 2#16)) ∨
    (∃ nnn, EndsAt t (zextAddr nnn)) ∨ (∃ nnn r, EndsAt t (zextAddr nnn + zextByte (s.reg r))) ∨
    ∃ k, k < s.sp.val ∧ EndsAt t (s.entry k) := by
  cases i with
  | jpNNN nnn =>
    cases h
    exact .inr (.inr (.inl ⟨nnn, rfl, rfl⟩))
  | jpV0NNN nnn =>
    cases h
    exact .inr (.inr (.inr (.inl ⟨nnn, 0x0#4, rfl, rfl⟩)))
  | callNNN nnn =>
    obtain ⟨-, rfl⟩ := execCallNNN_completes h hf
    exact .inr (.inr (.inl ⟨nnn, rfl, rfl⟩))
  | ret =>
    obtain ⟨hs, rfl⟩ := execRet_completes h hf
    exact .inr (.inr (.inr (.inr ⟨s.sp.val - 1, by omega, rfl, rfl⟩)))
  | seVxNN x nn | sneVxNN x nn | seVxVy x y | sneVxVy x y | skpVx x | sknpVx x =>
    cases h
    exact .inr (.inl (s.skipIf_endsAt _))
  | ldVxK x =>
    obtain ⟨-, rfl⟩ | ⟨k, -, rfl⟩ := execLdVxK_cases h
    · exact .inl ⟨rfl, rfl⟩
    · exact .inr (.inl (.inl ⟨rfl, rfl⟩))
  | drwVxVyN x y n =>
    obtain ⟨-, rfl⟩ := execDrwVxVyN_completes h hf
    exact .inr (.inl (.inl ⟨rfl, rfl⟩))
  | ldBVx x =>
    obtain ⟨-, rfl⟩ := execLdBVx_completes h hf
    exact .inr (.inl (.inl ⟨rfl, rfl⟩))
  | ldMemVx x =>
    obtain ⟨-, rfl⟩ := execLdMemVx_completes h hf
    exact .inr (.inl (.inl ⟨rfl, rfl⟩))
  | ldVxMem x =>
    obtain ⟨-, rfl⟩ := execLdVxMem_completes h hf
    exact .inr (.inl (.inl ⟨rfl, rfl⟩))
  | _ =>
    cases h
    exact .inr (.inl (.inl ⟨rfl, rfl⟩))

/-! ### Frames of the named updates -/

section
variable {s t : State} {parts : List Part}

theorem KeepsAllBut.refl (parts : List Part) (s : State) : KeepsAllBut parts s s := by
  intro p _
  cases p <;> simp [Part.same]

theorem KeepsAllBut.done (h : KeepsAllBut parts s t) : KeepsAllBut parts s t.done := by
  intro p hp
  cases p <;> exact h _ hp

theorem KeepsAllBut.jump (h : KeepsAllBut parts s t) (w : Word) : KeepsAllBut parts s (t.jump w) := by
  intro p hp
  cases p <;> exact h _ hp

theorem KeepsAllBut.skipIf (h : KeepsAllBut parts s t) (b : Bool) : KeepsAllBut parts s (t.skipIf b) := by
  intro p hp
  cases p <;> exact h _ hp

theorem KeepsAllBut.setReg (h : KeepsAllBut parts s t) (hm : .regs ∈ parts) (x : Reg) (b : Byte) :
    KeepsAllBut parts s (t.setReg x b) := by
  intro p hp
  cases p with
  | regs => exact absurd hm hp
  | _ => exact h _ hp

theorem KeepsAllBut.setResultFlag (h : KeepsAllBut parts s t) (hm : .regs ∈ parts) (x : Reg) (b : Byte) (f : Bool) :
    KeepsAllBut parts s (t.setResultFlag x b f) :=
  (h.setReg hm x b).setReg hm Reg.vf (flagByte f)

theorem KeepsAllBut.setRegs (h : KeepsAllBut parts s t) (hm : .regs ∈ parts) (bytes : List Byte) :
    KeepsAllBut parts s (t.setRegs bytes) := by
  intro p hp
  cases p with
  | regs => exact absurd hm hp
  | _ => exact h _ hp

theorem KeepsAllBut.setIndex (h : KeepsAllBut parts s t) (hm : .index ∈ parts) (w : Word) :
    KeepsAllBut parts s (t.setIndex w) := by
  intro p hp
  cases p with
  | index => exact absurd hm hp
  | _ => exact h _ hp

theorem KeepsAllBut.setDt (h : KeepsAllBut parts s t) (hm : .dt ∈ parts) (b : Byte) :
    KeepsAllBut parts s (t.setDt b) := by
  intro p hp
  cases p with
  | dt => exact absurd hm hp
  | _ => exact h _ hp

theorem KeepsAllBut.setSt (h : KeepsAllBut parts s t) (hm : .st ∈ parts) (b : Byte) :
    KeepsAllBut parts s (t.setSt b) := by
  intro p hp
  cases p with
  | st => exact absurd hm hp
  | _ => exact h _ hp

theorem KeepsAllBut.setMem (h : KeepsAllBut parts s t) (hm : .mem ∈ parts) (m : Memory) :
    KeepsAllBut parts s (t.setMem m) := by
  intro p hp
  cases p with
  | mem => exact absurd hm hp
  | _ => exact h _ hp

theorem KeepsAllBut.setPlane (h : KeepsAllBut parts s t) (hm : .plane ∈ parts) (q : Plane) :
    KeepsAllBut parts s (t.setPlane q) := by
  intro p hp
  cases p with
  | plane => exact absurd hm hp
  | _ => exact h _ hp

theorem KeepsAllBut.setStack (h : KeepsAllBut parts s t) (hm : .stack ∈ parts) (stack : Vector Word 16) (sp : Fin 17) :
    KeepsAllBut parts s { t with stack := stack, sp := sp } := by
  intro p hp
  cases p with
  | stack => exact absurd hm hp
  | _ => exact h _ hp

theorem KeepsAllBut.countRnd (h : KeepsAllBut parts s t) (hm : .rndCount ∈ parts) :
    KeepsAllBut parts s t.countRnd := by
  intro p hp
  cases p with
  | rndCount => exact absurd hm hp
  | _ => exact h _ hp

theorem KeepsAllBut.dropKey (h : KeepsAllBut parts s t) (hm : .keyNew ∈ parts) : KeepsAllBut parts s t.dropKey := by
  intro p hp
  cases p with
  | keyNew => exact absurd hm hp
  | _ => exact h _ hp

theorem KeepsAllBut.suspend (h : KeepsAllBut parts s t) (hm : .wait ∈ parts) (x : Reg) :
    KeepsAllBut parts s (t.suspend x) := by
  intro p hp
  cases p with
  | wait => exact absurd hm hp
  | _ => exact h _ hp

theorem KeepsAllBut.drawSprite (h : KeepsAllBut parts s t) (hp : .plane ∈ parts) (hr : .regs ∈ parts) (x y : Reg)
    (rows : List Byte) : KeepsAllBut parts s (t.drawSprite x y rows) :=
  (h.setPlane hp _).setReg hr Reg.vf _

end

/-! ### What a completed instruction leaves unchanged (R36) -/

section
variable {i : Instr} {s t : State} (h : exec i s = .next t) (hf : instrFault s i = none)
include h hf

/-- A completed instruction changes only the parts of its row of R36. -/
theorem exec_keepsAllBut : KeepsAllBut (writes i) s t := by
  have hs := KeepsAllBut.refl (writes i) s
  cases i with
  | cls =>
    cases h
    exact (hs.setPlane List.mem_cons_self _).done
  | ret =>
    obtain ⟨-, rfl⟩ := execRet_completes h hf
    exact (hs.setStack List.mem_cons_self _ _).jump _
  | callNNN nnn =>
    obtain ⟨-, rfl⟩ := execCallNNN_completes h hf
    exact (hs.setStack List.mem_cons_self _ _).jump _
  | jpNNN nnn | jpV0NNN nnn =>
    cases h
    exact hs.jump _
  | seVxNN x nn | sneVxNN x nn | seVxVy x y | sneVxVy x y | skpVx x | sknpVx x =>
    cases h
    exact hs.skipIf _
  | ldVxNN x nn | addVxNN x nn | ldVxVy x y | orVxVy x y | andVxVy x y | xorVxVy x y | ldVxDT x =>
    cases h
    exact (hs.setReg List.mem_cons_self _ _).done
  | addVxVy x y | subVxVy x y | shrVx x y | subnVxVy x y | shlVx x y =>
    cases h
    exact (hs.setResultFlag List.mem_cons_self _ _ _).done
  | rndVxNN x nn =>
    cases h
    exact ((hs.countRnd (by simp [writes])).setReg List.mem_cons_self _ _).done
  | drwVxVyN x y n =>
    obtain ⟨-, rfl⟩ := execDrwVxVyN_completes h hf
    exact (hs.drawSprite List.mem_cons_self (by simp [writes]) x y _).done
  | ldVxK x =>
    have hd := hs.dropKey (by simp [writes])
    obtain ⟨-, rfl⟩ | ⟨k, -, rfl⟩ := execLdVxK_cases h
    · exact hd.suspend (by simp [writes]) x
    · exact (hd.setReg List.mem_cons_self _ _).done
  | ldDTVx x =>
    cases h
    exact (hs.setDt List.mem_cons_self _).done
  | ldSTVx x =>
    cases h
    exact (hs.setSt List.mem_cons_self _).done
  | ldINNN nnn | addIVx x | ldFVx x =>
    cases h
    exact (hs.setIndex List.mem_cons_self _).done
  | ldBVx x =>
    obtain ⟨-, rfl⟩ := execLdBVx_completes h hf
    exact (hs.setMem List.mem_cons_self _).done
  | ldMemVx x =>
    obtain ⟨-, rfl⟩ := execLdMemVx_completes h hf
    exact (hs.setMem List.mem_cons_self _).done
  | ldVxMem x =>
    obtain ⟨-, rfl⟩ := execLdVxMem_completes h hf
    exact (hs.setRegs List.mem_cons_self _).done

/-- A completed instruction changes only the general registers of its row of R36. -/
theorem exec_reg_of_not_regWrites {r : Reg} (hr : ¬ regWrites i r) : t.reg r = s.reg r := by
  cases i with
  | ldVxNN x nn | addVxNN x nn | ldVxVy x y | orVxVy x y | andVxVy x y | xorVxVy x y | ldVxDT x =>
    cases h
    exact State.reg_setReg_ne s _ hr
  | rndVxNN x nn =>
    cases h
    exact State.reg_setReg_ne s.countRnd _ hr
  | addVxVy x y | subVxVy x y | shrVx x y | subnVxVy x y | shlVx x y =>
    cases h
    exact State.reg_setResultFlag_ne s _ _ (fun hx => hr (.inl hx)) (fun hv => hr (.inr hv))
  | drwVxVyN x y n =>
    obtain ⟨-, rfl⟩ := execDrwVxVyN_completes h hf
    exact State.drawSprite_reg_ne s x y _ hr
  | ldVxK x =>
    obtain ⟨-, rfl⟩ | ⟨k, -, rfl⟩ := execLdVxK_cases h
    · rfl
    · exact State.reg_setReg_ne s.dropKey _ hr
  | ldVxMem x =>
    obtain ⟨-, rfl⟩ := execLdVxMem_completes h hf
    have hr : x.toNat < r.toNat := by simpa [regWrites] using hr
    rw [State.done_reg, State.reg_setRegs, List.getElem?_eq_none (by simp; omega), Option.getD_none]
  | _ => exact exec_keepsAllBut h hf .regs (by simp [writes]) r

/-- A completed instruction changes only the stack entries of its row of R36. -/
theorem exec_entry_of_not_entryWrites {k : Nat} (hk : ¬ entryWrites s i k) : t.entry k = s.entry k := by
  cases i with
  | ret =>
    obtain ⟨-, rfl⟩ := execRet_completes h hf
    rfl
  | callNNN nnn =>
    obtain ⟨hs, rfl⟩ := execCallNNN_completes h hf
    have hk : s.sp.val ≠ k := fun hk' => hk hk'.symm
    simp [State.entry, hk]
  | _ => rw [State.entry, (exec_keepsAllBut h hf .stack (by simp [writes])).2, State.entry]

end

/-- Settles O51: a fault is a raise, and a completion keeps the parts, registers, bytes and entries outside its row. -/
theorem instructionChangesOnlyItsRow : Obligations.InstructionChangesOnlyItsRow := by
  intro i s t h
  refine ⟨fun hf => ⟨exec_keepsAllBut h hf, fun r => exec_reg_of_not_regWrites h hf, exec_keepsMemOutside h,
    fun k => exec_entry_of_not_entryWrites h hf⟩, fun c hf => ?_⟩
  rw [exec_of_instrFault_eq_some hf] at h
  cases h
  exact haltedBy_raise s c (encode i)

end Sys2Proof.Machine
end

section
/-!
PROOFS. The state (10_state.md): who writes VF, ST and HALT, the reset values, and the invariant that every Step keeps.
-/

namespace Sys2Proof.Machine

/-! ### VF (R21) -/

theorem State.setResultFlag_vf_cases (s : State) (x : Reg) (b : Byte) (f : Bool) :
    (s.setResultFlag x b f).reg Reg.vf = 0#8 ∨ (s.setResultFlag x b f).reg Reg.vf = 1#8 := by
  rw [State.reg_setResultFlag_vf]
  exact flagByte_cases f

theorem State.drawSprite_vf_cases (s : State) (x y : Reg) (rows : List Byte) :
    (s.drawSprite x y rows).reg Reg.vf = 0#8 ∨ (s.drawSprite x y rows).reg Reg.vf = 1#8 := by
  rw [State.drawSprite_reg_vf]
  exact flagByte_cases _

/-- Settles O52: a fault keeps VF, so the instruction completes and its row of R36 lists VF; it is then one of the flag
writers, or VF is its X, or it is FX65 with X at least 15. -/
theorem vfIsWrittenOnlyAsListed : Obligations.VFIsWrittenOnlyAsListed := by
  intro i s t h hne
  obtain ⟨c, -, -, rfl⟩ | hf := exec_cases h
  · exact absurd rfl hne
  have hw : regWrites i Reg.vf := by
    by_contra hw
    exact hne (exec_reg_of_not_regWrites h hf hw)
  cases i with
  | addVxVy x y | subVxVy x y | shrVx x y | subnVxVy x y | shlVx x y =>
    cases h
    exact .inl ⟨⟨x, y, by simp⟩, State.setResultFlag_vf_cases s x _ _⟩
  | drwVxVyN x y n =>
    obtain ⟨-, rfl⟩ := execDrwVxVyN_completes h hf
    exact .inl ⟨⟨x, y, by simp⟩, State.drawSprite_vf_cases s x y _⟩
  | ldVxNN x nn | addVxNN x nn | rndVxNN x nn =>
    obtain rfl : Reg.vf = x := hw
    exact .inr (.inl ⟨nn, by simp⟩)
  | ldVxVy x y | orVxVy x y | andVxVy x y | xorVxVy x y =>
    obtain rfl : Reg.vf = x := hw
    exact .inr (.inr (.inl ⟨y, by simp⟩))
  | ldVxDT x | ldVxK x =>
    obtain rfl : Reg.vf = x := hw
    exact .inr (.inr (.inr (by simp)))
  | ldVxMem x =>
    have hx : 15 ≤ x.toNat := hw
    obtain rfl : x = Reg.vf := by bv_omega
    exact .inr (.inr (.inr (by simp)))
  | _ => cases hw

/-! ### ST (R27) -/

theorem eq_ldSTVx_of_st_mem_writes {i : Instr} (h : .st ∈ writes i) : ∃ x, i = .ldSTVx x := by
  cases i with
  | ldSTVx x => exact ⟨x, rfl⟩
  | _ => simp [writes] at h

theorem exec_st {i : Instr} {s t : State} (h : exec i s = .next t) (hi : ∀ x, i ≠ .ldSTVx x) : t.st = s.st := by
  obtain ⟨c, -, -, rfl⟩ | hf := exec_cases h
  · rfl
  · refine exec_keepsAllBut h hf .st fun hm => ?_
    obtain ⟨x, rfl⟩ := eq_ldSTVx_of_st_mem_writes hm
    exact hi x rfl

@[simp] theorem instrFault_setSt (s : State) (b : Byte) (i : Instr) : instrFault (s.setSt b) i = instrFault s i := by
  cases i <;> rfl

/-- With another ST before, an instruction other than FX18 leaves the same state but for ST. -/
theorem exec_setSt {i : Instr} {s t : State} (b : Byte) (h : exec i s = .next t) (hi : ∀ x, i ≠ .ldSTVx x) :
    exec i (s.setSt b) = .next (t.setSt b) := by
  obtain ⟨c, -, hf, rfl⟩ | hf := exec_cases h
  · exact exec_of_instrFault_eq_some ((instrFault_setSt s b i).trans hf)
  · cases i with
    | ldSTVx x => exact absurd rfl (hi x)
    | ret =>
      obtain ⟨hs, rfl⟩ := execRet_completes h hf
      exact execRet_pops (s := s.setSt b) hs
    | callNNN nnn =>
      obtain ⟨hs, rfl⟩ := execCallNNN_completes h hf
      exact execCallNNN_pushes (s := s.setSt b) nnn hs
    | drwVxVyN x y n =>
      obtain ⟨hin, rfl⟩ := execDrwVxVyN_completes h hf
      exact execDrwVxVyN_draws (s := s.setSt b) x y n hin
    | ldBVx x =>
      obtain ⟨hx, rfl⟩ := execLdBVx_completes h hf
      exact execLdBVx_stores (s := s.setSt b) x hx
    | ldMemVx x =>
      obtain ⟨hx, rfl⟩ := execLdMemVx_completes h hf
      exact execLdMemVx_stores (s := s.setSt b) x hx
    | ldVxMem x =>
      obtain ⟨hx, rfl⟩ := execLdVxMem_completes h hf
      exact execLdVxMem_loads (s := s.setSt b) x hx
    | ldVxK x =>
      obtain ⟨hk, rfl⟩ | ⟨k, hk, rfl⟩ := execLdVxK_cases h
      · exact execLdVxK_suspends (s := s.setSt b) x hk
      · exact execLdVxK_takes (s := s.setSt b) x hk
    | _ =>
      cases h
      rfl

theorem State.tick_st_toNat (s : State) : s.tick.st.toNat = s.st.toNat - 1 := by
  rw [State.tick_eq]
  exact countDown_toNat s.st 1

/-- Settles O49: FX18 copies V[X], the Tick counts down, and every other instruction answers alike from another ST. -/
theorem soundTimerIsNeverRead : Obligations.SoundTimerIsNeverRead :=
  ⟨fun _ _ => ⟨_, rfl, rfl⟩, State.tick_st_toNat, fun _ _ _ b h hi => ⟨exec_st h hi, exec_setSt b h hi⟩,
    fun _ _ _ => rfl⟩

/-! ### HALT and the run states (R29, R30, R98) -/

theorem halt_not_mem_writes (i : Instr) : .halt ∉ writes i := by
  cases i <;> simp [writes]

theorem eq_ldVxK_of_wait_mem_writes {i : Instr} (h : .wait ∈ writes i) : ∃ x, i = .ldVxK x := by
  cases i with
  | ldVxK x => exact ⟨x, rfl⟩
  | _ => simp [writes] at h

section
variable {i : Instr} {s t : State} (h : exec i s = .next t) (hf : instrFault s i = none)
include h hf

theorem exec_keeps_halt : Part.halt.same s t :=
  exec_keepsAllBut h hf .halt (halt_not_mem_writes i)

/-- A completed instruction returns no event, or waits for a key. -/
theorem exec_event : t.event = .none ∨ t.event = .waiting := by
  obtain ⟨-, hev⟩ | (⟨-, hev⟩ | ⟨-, hev⟩) | ⟨_, -, hev⟩ | ⟨_, _, -, hev⟩ | ⟨_, -, -, hev⟩ := exec_ends_cases h hf
  · exact .inr hev
  all_goals exact .inl hev

end

/-- A Step raises a fault, with a cause, or leaves HALT with its record alone and returns no fault event. -/
theorem coreStep_raises_or_keeps_halt {s t : State} (h : coreStep s = .next t) :
    (∃ c op, c ≠ .none ∧ t = s.raise c op) ∨
    (Part.halt.same s t ∧ ∀ c op addr, t.event ≠ .fault c op addr) := by
  obtain ⟨-, rfl⟩ | ⟨-, -, rfl⟩ | ⟨-, -, rfl⟩ | ⟨-, op, -, -, rfl⟩ | ⟨-, op, i, -, -, hexec⟩ := coreStep_cases h
  · exact .inr ⟨⟨rfl, rfl, rfl, rfl⟩, fun _ _ _ => by simp⟩
  · cases hk : s.keyNew with
    | none =>
      rw [State.keyWaitRetry_none hk]
      exact .inr ⟨⟨rfl, rfl, rfl, rfl⟩, fun _ _ _ => by simp⟩
    | some k =>
      rw [State.keyWaitRetry_some hk]
      exact .inr ⟨⟨rfl, rfl, rfl, rfl⟩, fun _ _ _ => by simp⟩
  · exact .inl ⟨.memoryOutOfRange, 0x0000#16, by decide, rfl⟩
  · exact .inr ⟨⟨rfl, rfl, rfl, rfl⟩, fun _ _ _ => by simp⟩
  · obtain ⟨c, hc, -, rfl⟩ | hf := exec_cases hexec
    · exact .inl ⟨c, encode i, hc, rfl⟩
    · refine .inr ⟨exec_keeps_halt hexec hf, fun c op addr hev => ?_⟩
      obtain he | he := exec_event hexec hf <;> simp [he] at hev

/-- Settles O13: a Step raises a fault, which sets HALT, or leaves HALT as it was. -/
theorem haltIsSetByAFaultAndKept : Obligations.HaltIsSetByAFaultAndKept := by
  refine ⟨fun s t hs h => ?_, State.tick_halt, fun s t hs h ht => ?_, fun s t c op addr h hev => ?_, rfl⟩
  · obtain ⟨c, op, -, rfl⟩ | ⟨⟨hhalt, -⟩, -⟩ := coreStep_raises_or_keeps_halt h
    · rfl
    · exact hhalt.trans hs
  · obtain ⟨c, op, hc, rfl⟩ | ⟨⟨hhalt, -⟩, -⟩ := coreStep_raises_or_keeps_halt h
    · exact ⟨c, op, hc, rfl⟩
    · cases ht.symm.trans (hhalt.trans hs)
  · obtain ⟨c, op, -, rfl⟩ | ⟨-, hno⟩ := coreStep_raises_or_keeps_halt h
    · rfl
    · exact absurd hev (hno c op addr)

end Sys2Proof.Machine
end

section
/-!
PROOFS. The reset state (10_state.md R35) and the invariant: each way a Step can end keeps it (R23, R29, R31, R98, R100,
R181).
-/

namespace Sys2Proof.Machine

/-! ### The reset state (R35, R52) -/

/-- Settles O56: memory lists nothing, the stack is empty, and the core is neither halted nor waiting. -/
theorem resetMeetsTheInvariant : Obligations.ResetMeetsTheInvariant where
  memory := Memory.reset_wf
  pcBound := by decide
  stackBound := fun k hk => absurd hk (Nat.not_lt_zero k)
  oneRunState := by decide
  noRecord := fun _ => ⟨rfl, rfl, rfl⟩
  record := fun hh => by cases hh
  suspended := fun hw => by cases hw

theorem State.reset_reg (r : Reg) : State.reset.reg r = 0#8 := by
  simp [State.reg, State.reset]

theorem State.reset_entry (k : Nat) : State.reset.entry k = 0#16 := by
  by_cases hk : k < 16 <;> simp [State.entry, State.reset, hk]

theorem unlistedByte_outside_font {a : Nat} (h : a < 0x050 ∨ 0x0A0 ≤ a) : unlistedByte a = 0#8 := by
  have hlen : fontTable.length = 80 := rfl
  unfold unlistedByte
  split
  · rw [List.getD_eq_default _ _ (by omega)]
  · rfl

/-- Settles O58: registers, entries and pixels by the lemma of each, the bytes by what an unlisted address reads as. -/
theorem resetStateIsAsTabled : Obligations.ResetStateIsAsTabled :=
  ⟨State.reset_reg, rfl, rfl, rfl, State.reset_entry, rfl, rfl, rfl, rfl, rfl, rfl, rfl, rfl,
    fun x y _ _ => Plane.get_clear x y, fun _ ha => unlistedByte_outside_font ha, by decide⟩

/-! ### The values a completed instruction puts in PC (R23) -/

theorem State.npc_le {s : State} (h : s.pc.toNat ≤ 0xFFE) : (s.pc + 2#16).toNat ≤ 0x1000 := by
  bv_omega

theorem State.npc_add_two_le {s : State} (h : s.pc.toNat ≤ 0xFFE) : (s.pc + 2#16 + 2#16).toNat ≤ 0x1002 := by
  bv_omega

theorem zextAddr_toNat (nnn : BitVec 12) : (zextAddr nnn).toNat = nnn.toNat := by
  have := nnn.isLt
  simp only [zextAddr, BitVec.toNat_setWidth]
  omega

theorem zextByte_toNat (b : Byte) : (zextByte b).toNat = b.toNat := by
  have := b.isLt
  simp only [zextByte, BitVec.toNat_setWidth]
  omega

theorem zextAddr_le (nnn : BitVec 12) : (zextAddr nnn).toNat ≤ 0xFFF := by
  have := nnn.isLt
  rw [zextAddr_toNat]
  omega

theorem zextAddr_add_zextByte_le (nnn : BitVec 12) (b : Byte) : (zextAddr nnn + zextByte b).toNat ≤ 0x10FE := by
  have := zextAddr_le nnn
  have := b.isLt
  rw [BitVec.toNat_add, zextByte_toNat]
  omega

section
variable {i : Instr} {s t : State} (h : exec i s = .next t) (hf : instrFault s i = none)
  (hpc : s.pc.toNat ≤ 0xFFE) (hstack : ∀ k, k < s.sp.val → (s.entry k).toNat ≤ 0x1000)
include h hf

theorem exec_mem_wf (hwf : s.mem.wf) : t.mem.wf := by
  rcases Nat.eq_zero_or_pos (storedBytes i) with hi | hi
  · rwa [exec_mem_of_storedBytes_eq_zero h hi]
  · cases i with
    | ldBVx x =>
      obtain ⟨hx, rfl⟩ := execLdBVx_completes h hf
      exact Memory.writeBytes_wf _ hwf (by simp [Config.memSize]; omega)
    | ldMemVx x =>
      obtain ⟨hx, rfl⟩ := execLdMemVx_completes h hf
      exact Memory.writeBytes_wf _ hwf (by simp [Config.memSize]; omega)
    | _ => cases hi

include hpc hstack

/-- The largest PC is BNNN's, 0xFFF + 0xFF; a fetched instruction lies at 0xFFE or below, and 00EE takes a live
entry. -/
theorem exec_pc_le : t.pc.toNat ≤ 0x10FE := by
  obtain ⟨ht, -⟩ | (⟨ht, -⟩ | ⟨ht, -⟩) | ⟨nnn, ht, -⟩ | ⟨nnn, r, ht, -⟩ | ⟨k, hk, ht, -⟩ := exec_ends_cases h hf
  · exact ht ▸ hpc.trans (by decide)
  · exact ht ▸ (State.npc_le hpc).trans (by decide)
  · exact ht ▸ (State.npc_add_two_le hpc).trans (by decide)
  · exact ht ▸ (zextAddr_le nnn).trans (by decide)
  · exact ht ▸ zextAddr_add_zextByte_le nnn (s.reg r)
  · exact ht ▸ (hstack k hk).trans (by decide)

/-- The one entry that becomes live is 2NNN's, the address after it (R100, R102). -/
theorem exec_entry_le {k : Nat} (hk : k < t.sp.val) : (t.entry k).toNat ≤ 0x1000 := by
  cases i with
  | ret =>
    obtain ⟨hs, rfl⟩ := execRet_completes h hf
    have hk : k < s.sp.val - 1 := hk
    exact hstack k (by omega)
  | callNNN nnn =>
    by_cases hks : k = s.sp.val
    · obtain ⟨hs, rfl⟩ := execCallNNN_completes h hf
      subst hks
      simpa [State.entry] using State.npc_le hpc
    · rw [exec_entry_of_not_entryWrites h hf hks]
      obtain ⟨hs, rfl⟩ := execCallNNN_completes h hf
      have hk : k < s.sp.val + 1 := hk
      exact hstack k (by omega)
  | _ =>
    obtain ⟨hsp, hentries⟩ := exec_keepsAllBut h hf .stack (by simp [writes])
    rw [State.entry, hentries]
    exact hstack k (hsp ▸ hk)

end

/-- Only FX0A starts a wait: at the instruction, with its X latched (R29, R163). -/
theorem exec_wait {i : Instr} {s t : State} (h : exec i s = .next t) (hf : instrFault s i = none)
    (hw : s.wait = false) (ht : t.wait = true) : i = .ldVxK t.waitX ∧ t.fetch = s.fetch := by
  by_cases hm : .wait ∈ writes i
  · obtain ⟨x, rfl⟩ := eq_ldVxK_of_wait_mem_writes hm
    obtain ⟨-, rfl⟩ | ⟨k, -, rfl⟩ := execLdVxK_cases h
    · exact ⟨rfl, State.fetch_congr rfl rfl⟩
    · exact absurd (hw.symm.trans ht) (by decide)
  · have hkeep := (exec_keepsAllBut h hf .wait hm).1
    exact absurd (hw.symm.trans (hkeep.symm.trans ht)) (by decide)

/-! ### Each way a Step can end keeps the invariant -/

section
variable {s : State} (hinv : Inv s)
include hinv

/-- The invariant speaks of memory, PC, the stack, the wait, and HALT with its record. -/
theorem Inv.congr {t : State} (hmem : t.mem = s.mem) (hpc : t.pc = s.pc) (hstack : Part.stack.same s t)
    (hwait : Part.wait.same s t) (hhalt : Part.halt.same s t) : Inv t := by
  obtain ⟨hsp, hentries⟩ := hstack
  obtain ⟨hw, hwx⟩ := hwait
  obtain ⟨hh, hcause, hfpc, hfop⟩ := hhalt
  have hfetch := State.fetch_congr hpc hmem
  exact {
    memory := hmem ▸ hinv.memory
    pcBound := hpc ▸ hinv.pcBound
    stackBound := by simpa only [State.entry, hentries, hsp] using hinv.stackBound
    oneRunState := by simpa only [hh, hw] using hinv.oneRunState
    noRecord := by simpa only [hh, hcause, hfpc, hfop] using hinv.noRecord
    record := by simpa only [hh, hcause, hfpc, hfop, hpc, hfetch] using hinv.record
    suspended := by simpa only [hw, hwx, hfetch] using hinv.suspended }

theorem Inv.deliver : Inv s.deliver := hinv.congr rfl rfl ⟨rfl, rfl⟩ ⟨rfl, rfl⟩ ⟨rfl, rfl, rfl, rfl⟩

theorem Inv.haltedStep : Inv s.haltedStep := hinv.congr rfl rfl ⟨rfl, rfl⟩ ⟨rfl, rfl⟩ ⟨rfl, rfl, rfl, rfl⟩

theorem Inv.stillWaiting : Inv s.dropKey.stillWaiting :=
  hinv.congr rfl rfl ⟨rfl, rfl⟩ ⟨rfl, rfl⟩ ⟨rfl, rfl, rfl, rfl⟩

/-- A running core that takes a fault, with the word at PC in the record, or 0x0000 where none can be fetched. -/
theorem Inv.raise (hr : s.running) {c : Cause} (hc : c ≠ .none) {op : Word} (hop : op = s.fetch.getD 0#16) :
    Inv (s.raise c op) where
  memory := hinv.memory
  pcBound := hinv.pcBound
  stackBound := hinv.stackBound
  oneRunState := by simp [hr.2]
  noRecord := fun hh => by cases hh
  record := fun _ => ⟨hc, rfl, hop⟩
  suspended := fun hw => by cases hr.2.symm.trans hw

theorem Inv.unrecognised (hr : s.running) {op : Word} (hfetch : s.fetch = some op) : Inv (s.unrecognised op) where
  memory := hinv.memory
  pcBound := (State.npc_le (State.pc_le_of_fetch hfetch)).trans (by decide)
  stackBound := hinv.stackBound
  oneRunState := hinv.oneRunState
  noRecord := hinv.noRecord
  record := fun hh => by cases hr.1.symm.trans hh
  suspended := fun hw => by cases hr.2.symm.trans hw

/-- The wait ends: PC was at the suspended FX0A, which was fetched, so PC stays in its bound past it. -/
theorem Inv.resume (hh : s.halt = false) (hw : s.wait = true) (k : Key) :
    Inv (s.dropKey.setReg s.waitX (zextKey k)).resume where
  memory := hinv.memory
  pcBound := (State.npc_le (State.pc_le_of_fetch (hinv.suspended hw))).trans (by decide)
  stackBound := hinv.stackBound
  oneRunState := by simp
  noRecord := hinv.noRecord
  record := fun ht => by cases hh.symm.trans ht
  suspended := fun ht => by cases ht

theorem Inv.keyWaitRetry (hh : s.halt = false) (hw : s.wait = true) : Inv s.keyWaitRetry := by
  cases hk : s.keyNew with
  | none =>
    rw [State.keyWaitRetry_none hk]
    exact hinv.stillWaiting
  | some k =>
    rw [State.keyWaitRetry_some hk]
    exact hinv.resume hh hw k

theorem Inv.of_completes (hr : s.running) {i : Instr} (hfetch : s.fetch = some (encode i)) {t : State}
    (h : exec i s = .next t) (hf : instrFault s i = none) : Inv t := by
  have hpc := State.pc_le_of_fetch hfetch
  obtain ⟨hhalt, hcause, hfpc, hfop⟩ := exec_keeps_halt h hf
  have ht : t.halt = false := hhalt.trans hr.1
  exact {
    memory := exec_mem_wf h hf hinv.memory
    pcBound := exec_pc_le h hf hpc hinv.stackBound
    stackBound := fun k hk => exec_entry_le h hf hpc hinv.stackBound hk
    oneRunState := by simp [ht]
    noRecord := fun _ => by
      rw [hcause, hfpc, hfop]
      exact hinv.noRecord hr.1
    record := fun hh => by cases ht.symm.trans hh
    suspended := fun hw => by
      obtain ⟨hi, hsame⟩ := exec_wait h hf hr.2 hw
      rw [hsame, hfetch, hi]
      rfl }

theorem Inv.of_exec (hr : s.running) {i : Instr} (hfetch : s.fetch = some (encode i)) {t : State}
    (h : exec i s = .next t) : Inv t := by
  obtain ⟨c, hc, -, rfl⟩ | hf := exec_cases h
  · exact hinv.raise hr hc (by simp [hfetch])
  · exact hinv.of_completes hr hfetch h hf

theorem Inv.of_coreStep {t : State} (h : coreStep s = .next t) : Inv t := by
  obtain ⟨-, rfl⟩ | ⟨hh, hw, rfl⟩ | ⟨hr, hfetch, rfl⟩ | ⟨hr, op, hfetch, -, rfl⟩ |
    ⟨hr, op, i, hfetch, hdec, hexec⟩ := coreStep_cases h
  · exact hinv.haltedStep
  · exact hinv.keyWaitRetry hh hw
  · exact hinv.raise hr (by decide) (by simp [hfetch])
  · exact hinv.unrecognised hr hfetch
  · exact hinv.of_exec hr (by rw [hfetch, encode_of_decode hdec]) hexec

end

/-- Settles O55: the events before the Step keep the invariant, and so does each way the Step can end. -/
theorem stepKeepsTheInvariant : Obligations.StepKeepsTheInvariant :=
  fun _ _ hinv h => hinv.deliver.of_coreStep h

end Sys2Proof.Machine
end

section
/-!
PROOFS. Memory (20_memory.md): what FX55 stored is what FX65 loads (R57) and what the next Step fetches (R63).
-/

namespace Sys2Proof.Machine

/-- FX55 in range leaves V[k] at address I + k, for k up to X (R146). -/
theorem execLdMemVx_mem_read {x : Reg} {s t : State} (hx : s.index.toNat + x.toNat ≤ 0xFFF)
    (h : execLdMemVx x s = .next t) {r : Reg} (hr : r.toNat ≤ x.toNat) :
    t.mem.read (s.index.toNat + r.toNat) = s.reg r := by
  rw [execLdMemVx_stores x hx] at h
  cases h
  exact Memory.read_writeBytes_at _ _ _ _ _ (State.regsTo_getElem? s x r hr)

/-- FX65 in range leaves in V[k], for k up to X, the byte at address I + k (R147). -/
theorem execLdVxMem_reg {x : Reg} {s t : State} (hx : s.index.toNat + x.toNat ≤ 0xFFF)
    (h : execLdVxMem x s = .next t) {r : Reg} (hr : r.toNat ≤ x.toNat) :
    t.reg r = s.mem.read (s.index.toNat + r.toNat) := by
  rw [execLdVxMem_loads x hx] at h
  cases h
  refine (State.reg_setRegs s _ r).trans ?_
  simp [Nat.lt_succ_of_le hr]

/-- Settles O41: register k is loaded from address I + k, where the store left it. -/
theorem storedRegistersAreLoadedBack : Obligations.StoredRegistersAreLoadedBack := by
  intro x s t u hx hstore hmem hindex
  have hxu : u.index.toNat + x.toNat ≤ 0xFFF := hindex ▸ hx
  refine ⟨_, execLdVxMem_loads x hxu, fun r hr => ?_⟩
  rw [execLdVxMem_reg hxu (execLdVxMem_loads x hxu) hr, hmem, hindex]
  exact execLdMemVx_mem_read hx hstore hr

/-- Settles O42: with I at the next word, V0 and V1 are stored as its two bytes, and PC moves on to it. -/
theorem storeIsSeenByTheNextFetch : Obligations.StoreIsSeenByTheNextFetch := by
  intro x s hx1 hx hindex
  have hbase : s.index.toNat = s.pc.toNat + 2 := by bv_omega
  have hin : s.index.toNat + x.toNat ≤ 0xFFF := by omega
  have hstore := execLdMemVx_stores x hin
  have hhigh := execLdMemVx_mem_read hin hstore (r := 0x0#4) (Nat.zero_le _)
  have hlow := execLdMemVx_mem_read hin hstore (r := 0x1#4) hx1
  refine ⟨_, hstore, ?_⟩
  rw [State.fetch_eq_some] <;> rw [State.done_pc, State.setMem_pc, ← hindex]
  · exact congrArg some (congrArg₂ wordOfBytes hhigh hlow)
  · omega

end Sys2Proof.Machine
end

section
/-!
PROOFS. Encoder and decoder are inverse (30_encoding.md R70, R72, R75), on words and on bytes.
-/

namespace Sys2Proof

/-! ### Words and their bytes (R54, R70) -/

theorem wordOfBytes_bytesOfWord (op : Word) : wordOfBytes (op.extractLsb' 8 8) (op.extractLsb' 0 8) = op :=
  BitVec.extractLsb'_append_extractLsb' (w := 8) (len := 8)

theorem decodeBytes_bytesOfWord {op : Word} {i : Instr} (h : decode op = .ok i) (rest : List Byte) :
    decodeBytes (bytesOfWord op ++ rest) = .ok (i, rest) := by
  simp [bytesOfWord, decodeBytes, wordOfBytes_bytesOfWord, h]

/-! ### The round trip (R75) -/

/-- The word of every instruction selects a row whose fields spell the instruction. -/
theorem encode_selects (i : Instr) : Laws.Encoding.Statement i :=
  match i with
  | .cls => Laws.Encoding.cls
  | .ret => Laws.Encoding.ret
  | .jpNNN nnn => Laws.Encoding.jpNNN nnn
  | .callNNN nnn => Laws.Encoding.callNNN nnn
  | .seVxNN x nn => Laws.Encoding.seVxNN x nn
  | .sneVxNN x nn => Laws.Encoding.sneVxNN x nn
  | .seVxVy x y => Laws.Encoding.seVxVy x y
  | .ldVxNN x nn => Laws.Encoding.ldVxNN x nn
  | .addVxNN x nn => Laws.Encoding.addVxNN x nn
  | .ldVxVy x y => Laws.Encoding.ldVxVy x y
  | .orVxVy x y => Laws.Encoding.orVxVy x y
  | .andVxVy x y => Laws.Encoding.andVxVy x y
  | .xorVxVy x y => Laws.Encoding.xorVxVy x y
  | .addVxVy x y => Laws.Encoding.addVxVy x y
  | .subVxVy x y => Laws.Encoding.subVxVy x y
  | .shrVx x y => Laws.Encoding.shrVx x y
  | .subnVxVy x y => Laws.Encoding.subnVxVy x y
  | .shlVx x y => Laws.Encoding.shlVx x y
  | .sneVxVy x y => Laws.Encoding.sneVxVy x y
  | .ldINNN nnn => Laws.Encoding.ldINNN nnn
  | .jpV0NNN nnn => Laws.Encoding.jpV0NNN nnn
  | .rndVxNN x nn => Laws.Encoding.rndVxNN x nn
  | .drwVxVyN x y n => Laws.Encoding.drwVxVyN x y n
  | .skpVx x => Laws.Encoding.skpVx x
  | .sknpVx x => Laws.Encoding.sknpVx x
  | .ldVxDT x => Laws.Encoding.ldVxDT x
  | .ldVxK x => Laws.Encoding.ldVxK x
  | .ldDTVx x => Laws.Encoding.ldDTVx x
  | .ldSTVx x => Laws.Encoding.ldSTVx x
  | .addIVx x => Laws.Encoding.addIVx x
  | .ldFVx x => Laws.Encoding.ldFVx x
  | .ldBVx x => Laws.Encoding.ldBVx x
  | .ldMemVx x => Laws.Encoding.ldMemVx x
  | .ldVxMem x => Laws.Encoding.ldVxMem x

theorem decode_encode (i : Instr) : decode (encode i) = .ok i := by
  obtain ⟨r, hr, hsel, hbuild⟩ := encode_selects i
  rw [decode_of_selects hr hsel, hbuild]

/-- Settles O3: the word selects the instruction's own row, and the two bytes put together are the word. -/
theorem decodeOfEncode : Obligations.DecodeOfEncode :=
  fun i => ⟨decode_encode i, decodeBytes_bytesOfWord (decode_encode i)⟩

/-- Settles O4: every row of the opcode map keeps the whole word in the instruction it builds. -/
theorem encodeOfDecode : Obligations.EncodeOfDecode := fun _ _ => encode_of_decode

end Sys2Proof
end

section
/-!
PROOFS. Which words select a row of the opcode map, said in the fields of the word (30_encoding.md R71, R74, R76).
-/

namespace Sys2Proof

/-! ### The decoder refuses a word when no row is selected (R74) -/

theorem decode_eq_unrecognised_iff {op : Word} :
    decode op = .error (.unrecognised op) ↔ ∀ r ∈ opcodeRows, op &&& r.mask ≠ r.pat := by
  constructor
  · intro h r hr
    simpa [Row.selects] using (decode_error_cases h).2 r hr
  · intro h
    cases hd : decode op with
    | error e => rw [(decode_error_cases hd).1]
    | ok i =>
      obtain ⟨r, hr, hsel, -⟩ := decode_cases hd
      exact absurd (by simpa [Row.selects] using hsel) (h r hr)

/-- Settles O6: the rows are disjoint, so the first row selected is the only one. -/
theorem decodeFollowsTheSelectedRow : Obligations.DecodeFollowsTheSelectedRow := fun _ =>
  ⟨fun _ hr hsel => decode_of_selects hr (beq_iff_eq.2 hsel), decode_eq_unrecognised_iff.2⟩

/-! ### When a word has the fixed bits of a row (R72) -/

theorem mask_all_iff {op pat : Word} :
    op &&& 0xFFFF#16 = pat ↔
      (Fields.ofWord op).type = pat.extractLsb' 12 4 ∧ (Fields.ofWord op).nnn = pat.extractLsb' 0 12 := by
  have hall : op &&& 0xFFFF#16 = op := BitVec.and_allOnes
  rw [hall]
  constructor
  · rintro rfl
    exact ⟨rfl, rfl⟩
  · rintro ⟨htype, hnnn⟩
    rw [← type_append_nnn op, htype, hnnn]
    exact type_append_nnn pat

theorem mask_type_iff {op pat : Word} (hpat : pat.extractLsb' 12 4 ++ 0#12 = pat) :
    op &&& 0xF000#16 = pat ↔ (Fields.ofWord op).type = pat.extractLsb' 12 4 := by
  refine ⟨fun h => type_of_mask (h.trans hpat.symm), fun htype => ?_⟩
  have hand := and_nnn (Fields.ofWord op).type (Fields.ofWord op).nnn
  rwa [type_append_nnn, htype, hpat] at hand

theorem mask_type_nn_iff {op pat : Word} (hpat : pat.extractLsb' 12 4 ++ 0#4 ++ pat.extractLsb' 0 8 = pat) :
    op &&& 0xF0FF#16 = pat ↔
      (Fields.ofWord op).type = pat.extractLsb' 12 4 ∧ (Fields.ofWord op).nn = pat.extractLsb' 0 8 := by
  refine ⟨fun h => type_nn_of_mask (h.trans hpat.symm), fun ⟨htype, hnn⟩ => ?_⟩
  have hand := and_x (Fields.ofWord op).type (Fields.ofWord op).x (Fields.ofWord op).nn
  rwa [type_append_x_append_nn, htype, hnn, hpat] at hand

theorem mask_type_n_iff {op pat : Word} (hpat : pat.extractLsb' 12 4 ++ 0#4 ++ 0#4 ++ pat.extractLsb' 0 4 = pat) :
    op &&& 0xF00F#16 = pat ↔
      (Fields.ofWord op).type = pat.extractLsb' 12 4 ∧ (Fields.ofWord op).n = pat.extractLsb' 0 4 := by
  refine ⟨fun h => type_n_of_mask (h.trans hpat.symm), fun ⟨htype, hn⟩ => ?_⟩
  have hand := and_xy (Fields.ofWord op).type (Fields.ofWord op).x (Fields.ofWord op).y (Fields.ofWord op).n
  rwa [type_append_x_append_y_append_n, htype, hn, hpat] at hand

/-! ### When no row of a part of the opcode map is selected (R75) -/

theorem no_rowsLow_iff {op : Word} : (∀ r ∈ rowsLow, op &&& r.mask ≠ r.pat) ↔
    ((Fields.ofWord op).type = 0x0 → (Fields.ofWord op).nnn ∉ [0x0E0#12, 0x0EE#12]) ∧
    (Fields.ofWord op).type ∉ [0x1#4, 0x2#4, 0x3#4, 0x4#4] ∧
    ((Fields.ofWord op).type = 0x5 → (Fields.ofWord op).n ≠ 0) ∧
    (Fields.ofWord op).type ∉ [0x6#4, 0x7#4] := by
  simp [rowsLow, mask_all_iff, mask_type_iff, mask_type_n_iff, imp_and, and_assoc]

theorem no_rowsAlu_iff {op : Word} : (∀ r ∈ rowsAlu, op &&& r.mask ≠ r.pat) ↔
    ((Fields.ofWord op).type = 0x8 →
      (Fields.ofWord op).n ∉ [0x0#4, 0x1#4, 0x2#4, 0x3#4, 0x4#4, 0x5#4, 0x6#4, 0x7#4, 0xE#4]) ∧
    ((Fields.ofWord op).type = 0x9 → (Fields.ofWord op).n ≠ 0) := by
  simp [rowsAlu, mask_type_n_iff, imp_and, and_assoc]

theorem no_rowsMid_iff {op : Word} : (∀ r ∈ rowsMid, op &&& r.mask ≠ r.pat) ↔
    (Fields.ofWord op).type ∉ [0xA#4, 0xB#4, 0xC#4, 0xD#4] ∧
    ((Fields.ofWord op).type = 0xE → (Fields.ofWord op).nn ∉ [0x9E#8, 0xA1#8]) := by
  simp [rowsMid, mask_type_iff, mask_type_nn_iff, imp_and, and_assoc]

theorem no_rowsHigh_iff {op : Word} : (∀ r ∈ rowsHigh, op &&& r.mask ≠ r.pat) ↔
    ((Fields.ofWord op).type = 0xF →
      (Fields.ofWord op).nn ∉ [0x07#8, 0x0A#8, 0x15#8, 0x18#8, 0x1E#8, 0x29#8, 0x33#8, 0x55#8, 0x65#8]) := by
  simp [rowsHigh, mask_type_nn_iff, imp_and]

/-! ### The table of R76 -/

theorem type_in_table {t : BitVec 4} (h1 : t ∉ [0x1#4, 0x2#4, 0x3#4, 0x4#4]) (h6 : t ∉ [0x6#4, 0x7#4])
    (hA : t ∉ [0xA#4, 0xB#4, 0xC#4, 0xD#4]) :
    t = 0x0 ∨ t = 0x5 ∨ t = 0x8 ∨ t = 0x9 ∨ t = 0xE ∨ t = 0xF := by
  revert t
  decide

theorem nibble_notMem_iff {n : BitVec 4} :
    n ∉ [0x0#4, 0x1#4, 0x2#4, 0x3#4, 0x4#4, 0x5#4, 0x6#4, 0x7#4, 0xE#4] ↔
      n ∈ [0x8#4, 0x9#4, 0xA#4, 0xB#4, 0xC#4, 0xD#4, 0xF#4] := by
  revert n
  decide

/-- Settles O5: a type that some row takes whole is none of the table's, and of each other type the rows leave the
table's words. -/
theorem unrecognisedWordsAreTheTables : Obligations.UnrecognisedWordsAreTheTables := by
  intro op
  dsimp only
  rw [decode_eq_unrecognised_iff]
  simp only [opcodeRows, List.forall_mem_append, no_rowsLow_iff, no_rowsAlu_iff, no_rowsMid_iff, no_rowsHigh_iff,
    nibble_notMem_iff]
  constructor
  · rintro ⟨⟨⟨⟨h0, h1, h5, h6⟩, h8, h9⟩, hA, hE⟩, hF⟩
    rcases type_in_table h1 h6 hA with ht | ht | ht | ht | ht | ht
    · exact .inl ⟨ht, by simpa using h0 ht⟩
    · exact .inr (.inl ⟨ht, h5 ht⟩)
    · exact .inr (.inr (.inl ⟨ht, h8 ht⟩))
    · exact .inr (.inr (.inr (.inl ⟨ht, h9 ht⟩)))
    · exact .inr (.inr (.inr (.inr (.inl ⟨ht, hE ht⟩))))
    · exact .inr (.inr (.inr (.inr (.inr ⟨ht, hF ht⟩))))
  · rintro (⟨ht, h⟩ | ⟨ht, h⟩ | ⟨ht, h⟩ | ⟨ht, h⟩ | ⟨ht, h⟩ | ⟨ht, h⟩) <;> simpa [ht] using h

end Sys2Proof
end

section
/-!
PROOFS. The fields as numbers (30_encoding.md R71), and the words of the spec's own table (95_test_vectors.md
section 2.1).
-/

namespace Sys2Proof

/-! ### The fields of a word as numbers (R71) -/

theorem type_toNat (op : Word) : (Fields.ofWord op).type.toNat = op.toNat / 4096 := by
  have hmod : (Fields.ofWord op).type.toNat = op.toNat / 4096 % 16 := by
    simp [Fields.ofWord, Nat.shiftRight_eq_div_pow]
  omega

theorem x_toNat (op : Word) : (Fields.ofWord op).x.toNat = op.toNat / 256 % 16 := by
  simp [Fields.ofWord, Nat.shiftRight_eq_div_pow]

theorem y_toNat (op : Word) : (Fields.ofWord op).y.toNat = op.toNat / 16 % 16 := by
  simp [Fields.ofWord, Nat.shiftRight_eq_div_pow]

theorem n_toNat (op : Word) : (Fields.ofWord op).n.toNat = op.toNat % 16 := by
  simp [Fields.ofWord]

theorem nnn_toNat (op : Word) : (Fields.ofWord op).nnn.toNat = op.toNat % 4096 := by
  simp [Fields.ofWord]

theorem wordOfBytes_toNat (hi lo : Byte) : (wordOfBytes hi lo).toNat = hi.toNat * 256 + lo.toNat := by
  rw [wordOfBytes, BitVec.toNat_append, ← Nat.shiftLeft_add_eq_or_of_lt lo.isLt, Nat.shiftLeft_eq]

theorem nn_wordOfBytes (hi lo : Byte) : (Fields.ofWord (wordOfBytes hi lo)).nn = lo :=
  BitVec.extractLsb'_append_eq_right

/-- Settles O2: the fields of the word as numbers, and the word as the number of its two bytes. -/
theorem fieldsAreTheNamedBits : Obligations.FieldsAreTheNamedBits := by
  intro b0 b1
  dsimp only
  simp only [type_toNat, x_toNat, y_toNat, n_toNat, nnn_toNat, nn_wordOfBytes, wordOfBytes_toNat, true_and,
    and_true]
  omega

/-- Settles O1: the decoder evaluated on each word of the table. -/
theorem decodesTheSpecsWords : Obligations.DecodesTheSpecsWords := by
  unfold Obligations.DecodesTheSpecsWords
  decide

end Sys2Proof
end

section
/-!
PROOFS. The Step cycle (40_fetch_dispatch.md): the fetch and its fault (R91), the dispatch (R93), the no-op of an
unrecognised word (R97) and the Step of a halted core (R98).
-/

namespace Sys2Proof.Machine

/-! ### What the events before the Step and the Steps without an instruction keep -/

/-- No event of the outside world changes the run state (R6). -/
theorem State.running.deliver {s : State} (hr : s.running) : s.deliver.running := hr

theorem KeepsAllBut.unrecognised (s : State) (op : Word) : KeepsAllBut [] s (s.unrecognised op) := by
  intro p _
  cases p <;> simp [Part.same]

theorem KeepsAllBut.haltedStep (s : State) : KeepsAllBut [] s s.haltedStep := by
  intro p _
  cases p <;> simp [Part.same]

/-! ### The obligations -/

/-- Settles O7: the events before the Step change neither the run state nor the word fetched. -/
theorem stepRunsTheDecodedInstruction : Obligations.StepRunsTheDecodedInstruction :=
  fun s _ _ hr hfetch hdec => coreStep_running hr.deliver ((State.deliver_fetch s).trans hfetch) hdec

/-- Settles O9: the word fetched is put together from the two bytes, high byte first. -/
theorem fetchIsTwoBytesHighFirst : Obligations.FetchIsTwoBytesHighFirst :=
  fun _ => ⟨fun hpc => ⟨_, State.fetch_eq_some hpc, wordOfBytes_toNat _ _⟩, State.fetch_eq_none⟩

/-- Settles O10: nothing is fetched above 0xFFE, and the fetch fault is a raise on the state after the events. -/
theorem fetchFaultHalts : Obligations.FetchFaultHalts :=
  fun s hr hpc =>
    have hfetch : s.deliver.fetch = none := State.fetch_eq_none hpc
    ⟨_, coreStep_fetchFault hr.deliver hfetch, haltedBy_raise s.deliver _ _⟩

/-- Settles O11: the default arm moves PC alone and reports the word; a Step that cannot fetch is the fetch fault, whose
event is another. -/
theorem unrecognisedWordIsANoOp : Obligations.UnrecognisedWordIsANoOp := by
  refine ⟨fun s op hr hfetch hdec => ?_, by decide, fun s t hr hfetch hstep op a => ?_⟩
  · exact ⟨s.unrecognised op, coreStep_unrecognised hr hfetch hdec, rfl, rfl, KeepsAllBut.unrecognised s op⟩
  · rw [coreStep_fetchFault hr hfetch] at hstep
    cases hstep
    simp [State.fetchFault]

/-- Settles O12: the events before the Step leave HALT set, and the Step of a halted core clears the event alone. -/
theorem haltedStepChangesNothing : Obligations.HaltedStepChangesNothing :=
  fun s hh => ⟨s.deliver.haltedStep, coreStep_halted (s := s.deliver) hh, rfl, rfl, KeepsAllBut.haltedStep s.deliver⟩

end Sys2Proof.Machine
end

section
/-!
PROOFS. Control transfer (41_control_flow.md): jumps, the call stack and skips.
-/

namespace Sys2Proof.Machine

/-! ### The call stack (R100, R102, R103) -/

@[simp] theorem State.jump_entry (s : State) (w : Word) (k : Nat) : (s.jump w).entry k = s.entry k := rfl

theorem State.entry_set (s : State) (w : Word) {n : Nat} (hn : n < 16) (sp : Fin 17) (k : Nat) :
    State.entry { s with stack := s.stack.set n w hn, sp := sp } k = if k = n then w else s.entry k := by
  rcases eq_or_ne k n with rfl | hk
  · simp [State.entry]
  · simp [State.entry, hk, hk.symm]

theorem eq_ret_or_callNNN_of_stack_mem_writes {i : Instr} (h : .stack ∈ writes i) :
    i = .ret ∨ ∃ nnn, i = .callNNN nnn := by
  cases i with
  | ret => exact .inl rfl
  | callNNN nnn => exact .inr ⟨nnn, rfl⟩
  | _ => simp [writes] at h

/-- An instruction whose row of R36 does not list the stack keeps it, whether it faults or completes. -/
theorem exec_keeps_stack {i : Instr} {s t : State} (h : exec i s = .next t) (hi : .stack ∉ writes i) :
    Part.stack.same s t := by
  obtain ⟨c, -, -, rfl⟩ | hf := exec_cases h
  · exact ⟨rfl, rfl⟩
  · exact exec_keepsAllBut h hf .stack hi

/-- Settles O18: the pop moves SP alone and the jump PC; on an empty stack 00EE is a raise. -/
theorem returnPopsTheStack : Obligations.ReturnPopsTheStack := by
  refine ⟨decode_encode .ret, fun s => ⟨fun hs => ?_, fun hs => ?_⟩⟩
  · exact ⟨_, execRet_pops hs, rfl, ⟨rfl, rfl⟩, rfl,
      ((KeepsAllBut.refl [.stack] s).setStack List.mem_cons_self _ _).jump _⟩
  · obtain ⟨hhalt, hcause, -, -, hpc, -, hkeep⟩ := haltedBy_raise s .stackUnderflow 0x00EE#16
    exact ⟨_, execRet_underflow hs, hhalt, hcause, hpc, hkeep⟩

/-- Settles O19: the push writes the entry at SP alone, and at the capacity 2NNN is a raise. -/
theorem callPushesAndJumps : Obligations.CallPushesAndJumps := by
  refine fun nnn s => ⟨fun hs => ?_, fun hs => ⟨_, execCallNNN_overflow nnn hs, haltedBy_raise s _ _⟩⟩
  refine ⟨_, execCallNNN_pushes nnn hs, rfl, ?_, fun k hk => ?_, ⟨rfl, rfl⟩,
    ((KeepsAllBut.refl [.stack] s).setStack List.mem_cons_self _ _).jump _⟩
  · rw [State.jump_entry, State.entry_set, if_pos rfl]
  · rw [State.jump_entry, State.entry_set, if_neg hk]

/-- Settles O20: the 2NNN leaves SP one above its own entry, which is where the 00EE takes PC from. -/
theorem callThenReturnComesBack : Obligations.CallThenReturnComesBack := by
  refine ⟨fun nnn s t u hs hcall husp huentry => ?_, fun i s t h hret hcall => ?_⟩
  · obtain ⟨t', ht', hsp, hentry, -⟩ := (callPushesAndJumps nnn s).1 hs
    cases ht'.symm.trans hcall
    have hdepth : u.sp.val = s.sp.val + 1 := husp ▸ hsp
    obtain ⟨w, hw, hwsp, ⟨hwpc, -⟩, -⟩ := (returnPopsTheStack.2 u).1 (by omega)
    rw [hdepth, Nat.add_sub_cancel] at hwsp hwpc
    exact ⟨w, hw, hwpc.trans (huentry.trans hentry), Fin.ext hwsp⟩
  · refine exec_keeps_stack h fun hm => ?_
    obtain rfl | ⟨nnn, rfl⟩ := eq_ret_or_callNNN_of_stack_mem_writes hm
    · exact hret rfl
    · exact hcall nnn rfl

/-! ### Jumps (R101, R104) -/

theorem zextAddr_add_zextByte_toNat (nnn : BitVec 12) (b : Byte) :
    (zextAddr nnn + zextByte b).toNat = b.toNat + nnn.toNat := by
  have := nnn.isLt
  have := b.isLt
  rw [BitVec.toNat_add, zextAddr_toNat, zextByte_toNat]
  omega

/-- Settles O21: the jump moves PC alone, to NNN widened. -/
theorem jumpSetsPc : Obligations.JumpSetsPc :=
  fun nnn s => ⟨decode_encode (.jpNNN nnn), _, rfl, zextAddr_toNat nnn, rfl, (KeepsAllBut.refl [] s).jump _⟩

/-- Settles O22: the jump moves PC alone, and the sum of NNN and a byte fits 16 bits. -/
theorem jumpWithOffsetAddsV0 : Obligations.JumpWithOffsetAddsV0 :=
  fun nnn s => ⟨_, rfl, zextAddr_add_zextByte_toNat nnn (s.reg 0x0#4), rfl, (KeepsAllBut.refl [] s).jump _⟩

/-! ### Skips (R94, R105 to R108) -/

/-- An instruction that ends in a skip on `P` goes past the next word exactly when `P` holds, and moves PC alone. -/
theorem exec_skips {i : Instr} {s : State} {b : Bool} {P : Prop} [Decidable P] (h : exec i s = .next (s.skipIf b))
    (hb : b = true ↔ P) :
    ∃ t, exec i s = .next t ∧ EndsAt t (if P then s.pc + 4#16 else s.pc + 2#16) ∧ KeepsAllBut [] s t := by
  refine ⟨_, h, ⟨?_, rfl⟩, (KeepsAllBut.refl [] s).skipIf b⟩
  have hfour : s.pc + 2#16 + 2#16 = s.pc + 4#16 := BitVec.add_assoc s.pc 2#16 2#16
  simp only [State.skipIf, State.npc, hb, hfour]

/-- The patterns 5XY0 and 9XY0 are exact (D13): with another N the word is in the table of R76. -/
theorem decode_xyn_ne_ok {k : BitVec 4} (hk : k = 0x5 ∨ k = 0x9) (x y : Reg) {n : BitVec 4} (hn : n ≠ 0) (i : Instr) :
    decode (k ++ x ++ y ++ n) ≠ .ok i := by
  have htable : decode (k ++ x ++ y ++ n) = .error (.unrecognised (k ++ x ++ y ++ n)) := by
    refine (unrecognisedWordsAreTheTables _).2 ?_
    simp only [type_of_xyn, n_of_xyn]
    obtain hk | hk := hk
    · exact .inr (.inl ⟨hk, hn⟩)
    · exact .inr (.inr (.inr (.inl ⟨hk, hn⟩)))
  simp [htable]

/-- Settles O23: both instructions end in a skip, on the comparison of V[X] with NN and on its negation. -/
theorem skipsOnImmediate : Obligations.SkipsOnImmediate :=
  fun x nn _ => ⟨decode_encode (.seVxNN x nn), decode_encode (.sneVxNN x nn), exec_skips rfl beq_iff_eq,
    exec_skips rfl bne_iff_ne⟩

/-- Settles O24: both instructions end in a skip, on the comparison of V[X] with V[Y] and on its negation; a word with
N ≠ 0 is in the table of R76. -/
theorem skipsOnRegisters : Obligations.SkipsOnRegisters :=
  fun x y _ => ⟨decode_encode (.seVxVy x y), decode_encode (.sneVxVy x y),
    fun _ hn => ⟨decode_xyn_ne_ok (.inl rfl) x y hn, decode_xyn_ne_ok (.inr rfl) x y hn⟩,
    exec_skips rfl beq_iff_eq, exec_skips rfl bne_iff_ne⟩

end Sys2Proof.Machine
end

section
/-!
PROOFS. Loads, arithmetic, logic, shifts and the random byte (42_load_alu.md): one register written, or a result and
its flag.
-/

namespace Sys2Proof.Machine

/-! ### Register frames of the named updates -/

section
variable {s t : State} {xs : List Reg}

theorem KeepsRegsBut.refl (xs : List Reg) (s : State) : KeepsRegsBut xs s s := fun _ _ => rfl

theorem KeepsRegsBut.done (h : KeepsRegsBut xs s t) : KeepsRegsBut xs s t.done := h

theorem KeepsRegsBut.setReg {x : Reg} (h : KeepsRegsBut xs s t) (hx : x ∈ xs) (b : Byte) :
    KeepsRegsBut xs s (t.setReg x b) :=
  fun r hr => (State.reg_setReg_ne t b (ne_of_mem_of_not_mem hx hr).symm).trans (h r hr)

theorem KeepsRegsBut.setResultFlag {x : Reg} (h : KeepsRegsBut xs s t) (hx : x ∈ xs) (hvf : Reg.vf ∈ xs) (b : Byte)
    (f : Bool) : KeepsRegsBut xs s (t.setResultFlag x b f) :=
  (h.setReg hx b).setReg hvf (flagByte f)

end

/-- What an instruction that writes V[X] alone leaves beside V[X]. -/
theorem State.setReg_done_frame (s : State) (x : Reg) (b : Byte) :
    EndsAt (s.setReg x b).done (s.pc + 2#16) ∧ KeepsRegsBut [x] s (s.setReg x b).done ∧
      KeepsAllBut [.regs] s (s.setReg x b).done :=
  ⟨⟨rfl, rfl⟩, ((KeepsRegsBut.refl [x] s).setReg List.mem_cons_self b).done,
    ((KeepsAllBut.refl [.regs] s).setReg List.mem_cons_self x b).done⟩

/-- What an instruction that writes a result and its flag leaves beside V[X] and VF. -/
theorem State.setResultFlag_done_frame (s : State) (x : Reg) (b : Byte) (f : Bool) :
    EndsAt (s.setResultFlag x b f).done (s.pc + 2#16) ∧ KeepsRegsBut [x, Reg.vf] s (s.setResultFlag x b f).done ∧
      KeepsAllBut [.regs] s (s.setResultFlag x b f).done :=
  ⟨⟨rfl, rfl⟩, ((KeepsRegsBut.refl [x, Reg.vf] s).setResultFlag (by simp) (by simp) b f).done,
    ((KeepsAllBut.refl [.regs] s).setResultFlag List.mem_cons_self x b f).done⟩

/-! ### The flags as numbers (R133) -/

theorem flagByte_carry (a b : Byte) : flagByte (carry a b) = if a.toNat + b.toNat > 255 then 1#8 else 0#8 := by
  simp [flagByte, carry]

theorem flagByte_noBorrow (a b : Byte) : flagByte (noBorrow a b) = if a.toNat ≥ b.toNat then 1#8 else 0#8 := by
  simp [flagByte, noBorrow]

theorem flagByte_toNat (f : Bool) : (flagByte f).toNat = f.toNat := by
  cases f <;> rfl

theorem flagByte_getLsbD_toNat (b : Byte) (k : Nat) : (flagByte (b.getLsbD k)).toNat = b.toNat / 2 ^ k % 2 := by
  rw [flagByte_toNat, ← BitVec.testBit_toNat, Nat.toNat_testBit]

/-! ### Results with a flag (R125 to R130) -/

/-- Settles O29: the flag is the carry of the sum; the result is read where the flag did not overwrite it. -/
theorem addLeavesCarry : Obligations.AddLeavesCarry := by
  refine fun x y s => ⟨_, rfl, ?_, fun hx => ?_, s.setResultFlag_done_frame x _ _⟩
  · rw [State.done_reg, State.reg_setResultFlag_vf, flagByte_carry]
  · rw [State.done_reg, State.reg_setResultFlag_x s _ _ hx, BitVec.toNat_add]

/-- An instruction that ends in `a - b` with its flag, whichever operands they are. -/
theorem exec_subtracts {i : Instr} {s : State} {x : Reg} {a b : Byte}
    (h : exec i s = .next (s.setResultFlag x (a - b) (noBorrow a b)).done) :
    ∃ t, exec i s = .next t ∧ t.reg Reg.vf = (if a.toNat ≥ b.toNat then 1#8 else 0#8) ∧
      (x ≠ Reg.vf → (t.reg x).toNat = (a.toNat + 256 - b.toNat) % 256) ∧
      EndsAt t (s.pc + 2#16) ∧ KeepsRegsBut [x, Reg.vf] s t ∧ KeepsAllBut [.regs] s t := by
  refine ⟨_, h, ?_, fun hx => ?_, s.setResultFlag_done_frame x _ _⟩
  · rw [State.done_reg, State.reg_setResultFlag_vf, flagByte_noBorrow]
  · rw [State.done_reg, State.reg_setResultFlag_x s _ _ hx, BitVec.toNat_sub]
    omega

/-- Settles O30: both instructions end in a difference and its flag, with the operands exchanged. -/
theorem subtractLeavesNoBorrow : Obligations.SubtractLeavesNoBorrow :=
  fun _ _ _ => ⟨exec_subtracts rfl, exec_subtracts rfl⟩

/-- Settles O31: the flag is bit 0 or bit 7 of V[X], which are its remainder by 2 and its quotient by 128. -/
theorem shiftLeavesTheBitShiftedOut : Obligations.ShiftLeavesTheBitShiftedOut := by
  refine fun x y s => ⟨⟨_, rfl, ?_, fun hx => ?_, s.setResultFlag_done_frame x _ _⟩,
    ⟨_, rfl, ?_, fun hx => ?_, s.setResultFlag_done_frame x _ _⟩⟩
  · rw [State.done_reg, State.reg_setResultFlag_vf, flagByte_getLsbD_toNat, pow_zero, Nat.div_one]
  · rw [State.done_reg, State.reg_setResultFlag_x s _ _ hx, BitVec.toNat_ushiftRight, Nat.shiftRight_eq_div_pow,
      pow_one]
  · have hlt := (s.reg x).isLt
    rw [State.done_reg, State.reg_setResultFlag_vf, flagByte_getLsbD_toNat]
    omega
  · rw [State.done_reg, State.reg_setResultFlag_x s _ _ hx, BitVec.toNat_shiftLeft, Nat.shiftLeft_eq, pow_one]

/-! ### Results without a flag (R120 to R124, R132) -/

/-- Settles O25: V[X] alone is written, with NN. -/
theorem loadImmediateSetsVx : Obligations.LoadImmediateSetsVx :=
  fun x nn s => ⟨decode_encode (.ldVxNN x nn), _, rfl, s.reg_setReg_same x _, s.setReg_done_frame x _⟩

/-- Settles O26: V[X] alone is written, with the sum, which the register's width reduces. -/
theorem addImmediateWraps : Obligations.AddImmediateWraps := by
  refine fun x nn s => ⟨decode_encode (.addVxNN x nn), _, rfl, ?_, s.setReg_done_frame x _⟩
  rw [State.done_reg, State.reg_setReg_same, BitVec.toNat_add]

/-- Settles O27: V[X] alone is written, with V[Y]. -/
theorem copyRegisterSetsVx : Obligations.CopyRegisterSetsVx :=
  fun x y s => ⟨decode_encode (.ldVxVy x y), _, rfl, s.reg_setReg_same x _, s.setReg_done_frame x _⟩

/-- Settles O28: each of the three writes V[X] alone, with the operation bit by bit. -/
theorem logicIsBitwiseWithoutFlag : Obligations.LogicIsBitwiseWithoutFlag := by
  refine fun x y s => ⟨decode_encode (.orVxVy x y), decode_encode (.andVxVy x y), decode_encode (.xorVxVy x y),
    ⟨_, rfl, fun k => ?_, s.setReg_done_frame x _⟩, ⟨_, rfl, fun k => ?_, s.setReg_done_frame x _⟩,
    ⟨_, rfl, fun k => ?_, s.setReg_done_frame x _⟩⟩
  · rw [State.done_reg, State.reg_setReg_same, BitVec.getLsbD_or]
  · rw [State.done_reg, State.reg_setReg_same, BitVec.getLsbD_and]
  · rw [State.done_reg, State.reg_setReg_same, BitVec.getLsbD_xor]

/-! ### The random byte (R131) -/

/-- CXNN counts its sample and writes V[X] after it. -/
theorem exec_rndVxNN (x : Reg) (nn : Byte) (s : State) :
    exec (.rndVxNN x nn) s = .next (s.countRnd.setReg x (Config.rnd s.rndCount &&& nn)).done := rfl

/-- Settles O32: the counter and V[X] alone are written, V[X] with the free byte masked. -/
theorem randomIsMasked : Obligations.RandomIsMasked := by
  intro x nn s
  obtain ⟨hend, hregs, -⟩ := s.countRnd.setReg_done_frame x (Config.rnd s.rndCount &&& nn)
  refine ⟨_, exec_rndVxNN x nn s, s.countRnd.reg_setReg_same x _, fun k hk => ?_, rfl, hend, hregs, ?_⟩
  · rw [State.done_reg, State.reg_setReg_same, BitVec.getLsbD_and, hk, Bool.and_false]
  · exact (((KeepsAllBut.refl [.regs, .rndCount] s).countRnd (by simp)).setReg List.mem_cons_self x _).done

end Sys2Proof.Machine
end

section
/-!
PROOFS. The index register and memory (43_index_memory.md): I alone written, or the bytes from I on stored or loaded.
-/

namespace Sys2Proof.Machine

/-! ### Who writes I (R141 to R144) -/

/-- What an instruction that writes I alone leaves beside I. -/
theorem State.setIndex_done_frame (s : State) (w : Word) :
    EndsAt (s.setIndex w).done (s.pc + 2#16) ∧ KeepsAllBut [.index] s (s.setIndex w).done :=
  ⟨⟨rfl, rfl⟩, ((KeepsAllBut.refl [.index] s).setIndex List.mem_cons_self w).done⟩

/-- Five times a byte above the font base fits 16 bits. -/
theorem glyphAddr_toNat (b : Byte) : (glyphAddr b).toNat = 0x50 + 5 * b.toNat := by
  have hb := b.isLt
  have hfive : (Config.glyphBytes * zextByte b).toNat = 5 * b.toNat := by
    rw [BitVec.toNat_mul_of_lt] <;> rw [zextByte_toNat, show Config.glyphBytes.toNat = 5 from rfl]
    omega
  rw [glyphAddr, BitVec.toNat_add_of_lt] <;> rw [hfive, show Config.fontBase.toNat = 0x50 from rfl]
  omega

theorem eq_of_index_mem_writes {i : Instr} (h : .index ∈ writes i) :
    (∃ nnn, i = .ldINNN nnn) ∨ (∃ x, i = .addIVx x) ∨ ∃ x, i = .ldFVx x := by
  cases i with
  | ldINNN nnn => exact .inl ⟨nnn, rfl⟩
  | addIVx x => exact .inr (.inl ⟨x, rfl⟩)
  | ldFVx x => exact .inr (.inr ⟨x, rfl⟩)
  | _ => simp [writes] at h

/-- Settles O33: I alone is written, with NNN widened. -/
theorem loadIndexSetsI : Obligations.LoadIndexSetsI :=
  fun nnn s => ⟨decode_encode (.ldINNN nnn), _, rfl, zextAddr_toNat nnn, s.setIndex_done_frame _⟩

/-- Settles O34: I alone is written, with the sum, which the width of I reduces. -/
theorem addToIndexWraps : Obligations.AddToIndexWraps := by
  refine fun x s => ⟨_, rfl, ?_, s.setIndex_done_frame _⟩
  rw [State.done_index, State.setIndex_index, BitVec.toNat_add, zextByte_toNat]

/-- Settles O35: I alone is written, with the glyph address, whose sum does not wrap. -/
theorem glyphAddressIsFontBasePlusFiveVx : Obligations.GlyphAddressIsFontBasePlusFiveVx :=
  fun x s => ⟨decode_encode (.ldFVx x), _, rfl, glyphAddr_toNat (s.reg x), s.setIndex_done_frame _⟩

/-- Settles O40: a fault keeps I, so the instruction completes and its row of R36 lists I. -/
theorem onlyThreeInstructionsChangeI : Obligations.OnlyThreeInstructionsChangeI := by
  intro i s t h hne
  obtain ⟨c, -, -, rfl⟩ | hf := exec_cases h
  · exact absurd rfl hne
  · refine eq_of_index_mem_writes ?_
    by_contra hw
    exact hne (exec_keepsAllBut h hf .index hw)

/-! ### Bytes stored and loaded (R145 to R147) -/

/-- What a completed store leaves beside memory. -/
theorem State.setMem_done_frame (s : State) (m : Memory) :
    EndsAt (s.setMem m).done (s.pc + 2#16) ∧ KeepsAllBut [.mem] s (s.setMem m).done :=
  ⟨⟨rfl, rfl⟩, ((KeepsAllBut.refl [.mem] s).setMem List.mem_cons_self m).done⟩

/-- A decimal digit fits a byte. -/
theorem digit_toNat (n : Nat) : (BitVec.ofNat 8 (n % 10)).toNat = n % 10 := by
  rw [BitVec.toNat_ofNat]
  omega

/-- Settles O36: digit k is the k-th byte written from I on. -/
theorem decimalDigitsAreStored : Obligations.DecimalDigitsAreStored := by
  intro x s hx
  have hstore := execLdBVx_stores x hx
  have hdigit : ∀ k d, (bcdDigits (s.reg x))[k]? = some d →
      (s.mem.writeBytes s.index.toNat (bcdDigits (s.reg x))).read (s.index.toNat + k) = d :=
    fun k d => Memory.read_writeBytes_at _ _ _ k d
  exact ⟨_, hstore, (congrArg _ (hdigit 0 _ rfl)).trans (digit_toNat _),
    (congrArg _ (hdigit 1 _ rfl)).trans (digit_toNat _), (congrArg _ (hdigit 2 _ rfl)).trans (digit_toNat _),
    execLdBVx_keepsMemOutside hstore, s.setMem_done_frame _⟩

/-- Settles O37: register k is the k-th byte written from I on. -/
theorem registersAreStored : Obligations.RegistersAreStored :=
  fun x s hx =>
    have hstore := execLdMemVx_stores x hx
    ⟨_, hstore, fun _ hr => execLdMemVx_mem_read hx hstore hr, execLdMemVx_keepsMemOutside hstore,
      s.setMem_done_frame _⟩

/-- Settles O38: the registers up to X are loaded, and those above X are not in the row of R36. -/
theorem registersAreLoaded : Obligations.RegistersAreLoaded := by
  intro x s hx
  have hload := execLdVxMem_loads x hx
  have hf : instrFault s (.ldVxMem x) = none := by simpa [instrFault] using hx
  refine ⟨_, hload, fun r => ?_, ⟨rfl, rfl⟩, exec_keepsAllBut (i := .ldVxMem x) hload hf⟩
  split
  next hr => exact execLdVxMem_reg hx hload hr
  next hr => exact exec_reg_of_not_regWrites (i := .ldVxMem x) hload hf hr

end Sys2Proof.Machine
end

section
/-!
PROOFS. The display (44_display.md): 00E0 clears the plane, DXYN exclusive-ors a sprite into it, and nothing else
changes it.
-/

namespace Sys2Proof.Machine

/-! ### 00E0 (R151) -/

theorem decode_eq_ok_iff {op : Word} {i : Instr} : decode op = .ok i ↔ op = encode i :=
  ⟨fun h => (encode_of_decode h).symm, fun h => h ▸ decode_encode i⟩

/-- Settles O43: the word is the encoding of 00E0, and the plane alone is written. -/
theorem clearTurnsEveryPixelOff : Obligations.ClearTurnsEveryPixelOff :=
  ⟨fun _ => decode_eq_ok_iff, fun s => ⟨_, rfl, fun x y _ _ => Plane.get_clear x y, ⟨rfl, rfl⟩,
    ((KeepsAllBut.refl [.plane] s).setPlane List.mem_cons_self _).done⟩⟩

/-! ### One draw (R152) -/

section
variable (s : State) (x y : Reg) (n : BitVec 4)

theorem State.drawSprite_fb_get {px py : Nat} (hx : px < 64) (hy : py < 32) :
    (s.drawSprite x y ((List.range n.toNat).map fun k => s.mem.read (s.index.toNat + k))).fb.get px py =
      (s.fb.get px py ^^ spriteBit s x y n px py) := by
  rw [State.drawSprite_fb, Canvas.get_drawRows _ _ _ _ hx hy, rowsBit_eq_spriteBit]

theorem hit_drawRows_iff_collides :
    (Canvas.drawRows ⟨s.fb, false⟩ ((s.reg x).toNat % 64) ((s.reg y).toNat % 32)
      ((List.range n.toNat).map fun k => s.mem.read (s.index.toNat + k))).hit = true ↔ Collides s x y n := by
  simp only [Canvas.hit_drawRows, rowsBit_eq_spriteBit, Bool.false_eq_true, false_or, Collides]

/-- What a draw leaves beside the pixels and VF. -/
theorem State.drawSprite_done_frame (rows : List Byte) :
    EndsAt (s.drawSprite x y rows).done (s.pc + 2#16) ∧ KeepsRegsBut [Reg.vf] s (s.drawSprite x y rows).done ∧
      KeepsAllBut [.plane, .regs] s (s.drawSprite x y rows).done :=
  ⟨⟨rfl, rfl⟩, fun _ hr => s.drawSprite_reg_ne x y rows (List.ne_of_not_mem_cons hr),
    ((KeepsAllBut.refl [.plane, .regs] s).drawSprite (by simp) (by simp) x y rows).done⟩

end

/-- Settles O44: the rows drawn have the sprite's bits, and the draw hits exactly when the sprite collides. -/
theorem drawXorsTheSprite : Obligations.DrawXorsTheSprite := by
  intro x y n s hin
  have hhit := hit_drawRows_iff_collides s x y n
  refine ⟨_, execDrwVxVyN_draws x y n hin, fun px py hx hy => s.drawSprite_fb_get x y n hx hy, fun hc => ?_,
    fun hc => ?_, s.drawSprite_done_frame x y _⟩
  · rw [State.done_reg, State.drawSprite_reg_vf, hhit.2 hc]
    rfl
  · rw [State.done_reg, State.drawSprite_reg_vf, Bool.eq_false_iff.2 fun hh => hc (hhit.1 hh)]
    rfl

/-! ### Two equal draws (R153) -/

/-- The sprite's bits depend on the origin and on the N bytes at I alone. -/
theorem spriteBit_congr {s u : State} {x y : Reg} {n : BitVec 4} (hx : u.reg x = s.reg x) (hy : u.reg y = s.reg y)
    (hbytes : ∀ k, k < n.toNat → u.mem.read (u.index.toNat + k) = s.mem.read (s.index.toNat + k)) :
    spriteBit u x y n = spriteBit s x y n := by
  funext px py
  simp only [spriteBit, hx, hy]
  by_cases hpy : (s.reg y).toNat % 32 ≤ py ∧ py < (s.reg y).toNat % 32 + n.toNat
  · rw [hbytes _ (by omega)]
  · rw [decide_eq_false (by omega), Bool.false_and, Bool.false_and]

theorem Collides.spriteShows {s : State} {x y : Reg} {n : BitVec 4} : Collides s x y n → SpriteShows s x y n :=
  fun ⟨px, py, hx, hy, hbit, _⟩ => ⟨px, py, hx, hy, hbit⟩

theorem spriteShows_congr {s u : State} {x y : Reg} {n : BitVec 4} (h : spriteBit u x y n = spriteBit s x y n) :
    SpriteShows u x y n ↔ SpriteShows s x y n := by
  rw [SpriteShows, SpriteShows, h]

/-- A set bit that shows falls on a pixel that is on, or the first draw turns that pixel on for the second. -/
theorem SpriteShows.collides_of_redraw {s u : State} {x y : Reg} {n : BitVec 4} (hs : SpriteShows s x y n)
    (hbit : spriteBit u x y n = spriteBit s x y n)
    (hdraw : ∀ px py, px < 64 → py < 32 → u.fb.get px py = (s.fb.get px py ^^ spriteBit s x y n px py))
    (hfirst : ¬ Collides s x y n) : Collides u x y n := by
  obtain ⟨px, py, hx, hy, hset⟩ := hs
  have hoff : s.fb.get px py = false := Bool.eq_false_iff.2 fun hon => hfirst ⟨px, py, hx, hy, hset, hon⟩
  refine ⟨px, py, hx, hy, hbit ▸ hset, ?_⟩
  rw [hdraw px py hx hy, hoff, hset]
  rfl

/-- Settles O45: the second draw has the bits of the first, so it undoes the exclusive-or, and a pixel that the first
turned on is on for the second. -/
theorem drawingTwiceRestoresThePlane : Obligations.DrawingTwiceRestoresThePlane := by
  intro x y n s t u w hin hfirst hsecond hfb hx hy hindex hbytes
  obtain ⟨_, ht, htget, hthit, htmiss, -⟩ := drawXorsTheSprite x y n s hin
  obtain ⟨_, hw, hwget, hwhit, hwmiss, -⟩ := drawXorsTheSprite x y n u (hindex ▸ hin)
  cases ht.symm.trans hfirst
  cases hw.symm.trans hsecond
  have hbit := spriteBit_congr hx hy hbytes
  have hredraw : SpriteShows s x y n → ¬ Collides s x y n → w.reg Reg.vf = 1#8 := fun hs hc =>
    hwhit (hs.collides_of_redraw hbit (hfb ▸ htget) hc)
  refine ⟨fun px py hpx hpy => ?_, fun hs => ?_, fun hs ht0 => hredraw hs fun hc => ?_, fun hs =>
    ⟨htmiss (mt Collides.spriteShows hs), hwmiss (mt Collides.spriteShows (mt (spriteShows_congr hbit).1 hs))⟩⟩
  · rw [hwget px py hpx hpy, hfb, htget px py hpx hpy, hbit, Bool.xor_assoc, Bool.xor_self, Bool.xor_false]
  · by_cases hc : Collides s x y n
    · exact .inl (hthit hc)
    · exact .inr (hredraw hs hc)
  · exact absurd (ht0.symm.trans (hthit hc)) (by decide)

/-! ### Who writes the plane (R32, R154) -/

theorem eq_cls_or_drwVxVyN_of_plane_mem_writes {i : Instr} (h : .plane ∈ writes i) :
    i = .cls ∨ ∃ x y n, i = .drwVxVyN x y n := by
  cases i with
  | cls => exact .inl rfl
  | drwVxVyN x y n => exact .inr ⟨x, y, n, rfl⟩
  | _ => simp [writes] at h

/-- An instruction that changes the plane has it in its row of R36: a fault keeps the plane. -/
theorem plane_mem_writes_of_exec {i : Instr} {s t : State} (h : exec i s = .next t) (hne : t.fb ≠ s.fb) :
    .plane ∈ writes i := by
  obtain ⟨c, -, -, rfl⟩ | hf := exec_cases h
  · exact absurd (State.raise_fb s c (encode i)) hne
  · by_contra hw
    exact hne (exec_keepsAllBut h hf .plane hw)

@[simp] theorem State.keyWaitRetry_fb (s : State) : s.keyWaitRetry.fb = s.fb := by
  cases hk : s.keyNew with
  | none => rw [State.keyWaitRetry_none hk]; rfl
  | some k => rw [State.keyWaitRetry_some hk]; rfl

/-- A Step that runs no instruction leaves the plane as it is. -/
theorem coreStep_fb_eq_or_exec {s t : State} (h : coreStep s = .next t) :
    t.fb = s.fb ∨ ∃ op i, s.fetch = some op ∧ decode op = .ok i ∧ exec i s = .next t := by
  obtain ⟨-, rfl⟩ | ⟨-, -, rfl⟩ | ⟨-, -, rfl⟩ | ⟨-, op, -, -, rfl⟩ | ⟨-, hexec⟩ := coreStep_cases h
  · exact .inl (State.haltedStep_fb s)
  · exact .inl (State.keyWaitRetry_fb s)
  · exact .inl (State.raise_fb s _ _)
  · exact .inl (State.unrecognised_fb s op)
  · exact .inr hexec

/-- Settles O54: the Step runs the instruction at PC, whose row of R36 lists the plane. -/
theorem planeChangesOnlyByClearOrDraw : Obligations.PlaneChangesOnlyByClearOrDraw := by
  intro s t hstep hne
  obtain hfb | ⟨op, i, hfetch, hdec, hexec⟩ := coreStep_fb_eq_or_exec hstep
  · exact absurd (hfb.trans (State.deliver_fb s)) hne
  · refine ⟨op, State.deliver_fetch s ▸ hfetch, ?_⟩
    obtain rfl | ⟨x, y, n, rfl⟩ := eq_cls_or_drwVxVyN_of_plane_mem_writes (plane_mem_writes_of_exec hexec hne)
    · exact .inl hdec
    · exact .inr ⟨x, y, n, hdec⟩

end Sys2Proof.Machine
end

section
/-!
PROOFS. The keypad (45_keypad.md): FX0A and its later attempts (R163, R164), and the skips on the current key (R161,
R162).
-/

namespace Sys2Proof.Machine

/-! ### The two keys of InputState (R160) -/

/-- With no new key there is nothing to drop. -/
theorem State.dropKey_eq_self {s : State} (h : s.keyNew = none) : s.dropKey = s := by
  rw [State.dropKey, ← h]

theorem zextKey_eq_iff (k : Key) (b : Byte) : zextKey k = b ↔ k.toNat = b.toNat := by
  rw [← BitVec.toNat_inj, zextKey_toNat]

/-- The key compared is the whole byte, and no key equals nothing (D16). -/
theorem keyIs_iff (key : Option Key) (b : Byte) : keyIs key b = true ↔ ∃ k, key = some k ∧ k.toNat = b.toNat := by
  cases key with
  | none => simp [keyIs]
  | some k => simp [keyIs, zextKey_eq_iff]

/-! ### Frames of the two ends of a retry (R164) -/

section
variable {s t : State} {parts : List Part}

theorem KeepsAllBut.stillWaiting (h : KeepsAllBut parts s t) : KeepsAllBut parts s t.stillWaiting := by
  intro p hp
  cases p <;> exact h _ hp

theorem KeepsAllBut.resume (h : KeepsAllBut parts s t) (hm : .wait ∈ parts) : KeepsAllBut parts s t.resume := by
  intro p hp
  cases p with
  | wait => exact absurd hm hp
  | _ => exact h _ hp

end

/-! ### The obligations -/

/-- Settles O14: the retry is the whole Step; without a key it writes the event alone, with one it writes V[WAITX] and
ends the wait. -/
theorem waitingStepRetries : Obligations.WaitingStepRetries := by
  refine fun s hh hw => ⟨fun hk => ?_, fun k hk => ?_⟩
  · have hstep : coreStep s = .next s.stillWaiting := by
      rw [coreStep_waiting hh hw, State.keyWaitRetry_none hk, State.dropKey_eq_self hk]
    exact ⟨_, hstep, rfl, rfl, (KeepsAllBut.refl [] s).stillWaiting⟩
  · have hstep : coreStep s = .next (s.dropKey.setReg s.waitX (zextKey k)).resume := by
      rw [coreStep_waiting hh hw, State.keyWaitRetry_some hk]
    have hdrop := (KeepsAllBut.refl [.regs, .wait, .keyNew] s).dropKey (by simp)
    exact ⟨_, hstep, s.dropKey.reg_setReg_same s.waitX _, rfl, rfl, ⟨rfl, rfl⟩,
      (KeepsRegsBut.refl [s.waitX] s.dropKey).setReg List.mem_cons_self _,
      (hdrop.setReg List.mem_cons_self _ _).resume (by simp)⟩

/-- Settles O47: with a key V[X] is written and KEY_NEW consumed; without one there is nothing to consume, and the
suspension writes WAIT and WAITX alone. -/
theorem keyWaitTakesAKeyOrSuspends : Obligations.KeyWaitTakesAKeyOrSuspends := by
  refine fun x s => ⟨fun k hk => ?_, fun hk => ?_⟩
  · obtain ⟨hend, hregs, -⟩ := s.dropKey.setReg_done_frame x (zextKey k)
    have hdrop := (KeepsAllBut.refl [.regs, .keyNew] s).dropKey (by simp)
    refine ⟨_, execLdVxK_takes x hk, ?_, rfl, hend, hregs, (hdrop.setReg List.mem_cons_self _ _).done⟩
    rw [State.done_reg, State.reg_setReg_same, zextKey_toNat]
  · have hexec : exec (.ldVxK x) s = .next (s.suspend x) :=
      (execLdVxK_suspends x hk).trans (by rw [State.dropKey_eq_self hk])
    exact ⟨_, hexec, rfl, rfl, rfl, rfl, (KeepsAllBut.refl [.wait] s).suspend List.mem_cons_self x⟩

/-- Settles O46: both instructions end in a skip, on the comparison of the current key with V[X] and on its negation. -/
theorem skipsOnTheCurrentKey : Obligations.SkipsOnTheCurrentKey := by
  intro x s
  have hkey := keyIs_iff s.keyCur (s.reg x)
  have hnokey : (!keyIs s.keyCur (s.reg x)) = true ↔ ¬ ∃ k, s.keyCur = some k ∧ k.toNat = (s.reg x).toNat := by
    rw [Bool.not_eq_true', Bool.eq_false_iff, Ne, hkey]
  exact ⟨exec_skips rfl hkey, by simpa only [ite_not] using exec_skips (i := .sknpVx x) (s := s) rfl hnokey⟩

end Sys2Proof.Machine
end

section
/-!
PROOFS. The timers (46_timers.md): the three register copies (R171, R172, R173), the Tick (R174), and who raises a timer
over a step (R175).
-/

namespace Sys2Proof.Machine

/-! ### The Tick (R174) -/

theorem State.tick_dt_toNat (s : State) : s.tick.dt.toNat = s.dt.toNat - 1 := by
  rw [State.tick_eq]
  exact countDown_toNat s.dt 1

theorem KeepsAllBut.tick {s t : State} {parts : List Part} (h : KeepsAllBut parts s t) (hdt : .dt ∈ parts)
    (hst : .st ∈ parts) : KeepsAllBut parts s t.tick := by
  intro p hp
  cases p with
  | dt => exact absurd hdt hp
  | st => exact absurd hst hp
  | _ => exact h _ hp

/-- Settles O15: a Tick counts both timers down by one unit, and no other field of the state is written. -/
theorem tickCountsBothTimersDown : Obligations.TickCountsBothTimersDown :=
  fun s => ⟨s.tick_dt_toNat, s.tick_st_toNat, s.tick_pc, s.tick_event,
    (KeepsAllBut.refl [.dt, .st] s).tick (by simp) (by simp)⟩

/-! ### The register copies (R171, R172, R173) -/

/-- Settles O48: each instruction writes its register or timer alone, and the Tick after a write counts down the value
copied. -/
theorem timerRegistersAreCopied : Obligations.TimerRegistersAreCopied := by
  refine fun x s => ⟨decode_encode (.ldVxDT x), decode_encode (.ldDTVx x), decode_encode (.ldSTVx x),
    ⟨_, rfl, s.reg_setReg_same x _, s.setReg_done_frame x _⟩, ⟨_, rfl, rfl, State.tick_dt_toNat _, ⟨rfl, rfl⟩, ?_⟩,
    ⟨_, rfl, rfl, State.tick_st_toNat _, ⟨rfl, rfl⟩, ?_⟩⟩
  · exact ((KeepsAllBut.refl [.dt] s).setDt List.mem_cons_self _).done
  · exact ((KeepsAllBut.refl [.st] s).setSt List.mem_cons_self _).done

/-! ### Who raises a timer (R175) -/

theorem eq_ldDTVx_of_dt_mem_writes {i : Instr} (h : .dt ∈ writes i) : ∃ x, i = .ldDTVx x := by
  cases i with
  | ldDTVx x => exact ⟨x, rfl⟩
  | _ => simp [writes] at h

/-- An instruction other than FX15 keeps DT: a fault keeps it, and no other row of R36 lists it. -/
theorem exec_dt {i : Instr} {s t : State} (h : exec i s = .next t) (hi : ∀ x, i ≠ .ldDTVx x) : t.dt = s.dt := by
  obtain ⟨c, -, -, rfl⟩ | hf := exec_cases h
  · rfl
  · refine exec_keepsAllBut h hf .dt fun hm => ?_
    obtain ⟨x, rfl⟩ := eq_ldDTVx_of_dt_mem_writes hm
    exact hi x rfl

theorem State.keyWaitRetry_timers (s : State) : s.keyWaitRetry.dt = s.dt ∧ s.keyWaitRetry.st = s.st := by
  cases hk : s.keyNew with
  | none => rw [State.keyWaitRetry_none hk]; exact ⟨rfl, rfl⟩
  | some k => rw [State.keyWaitRetry_some hk]; exact ⟨rfl, rfl⟩

/-- A Step that runs no instruction leaves both timers as they are. -/
theorem coreStep_timers_eq_or_exec {s t : State} (h : coreStep s = .next t) :
    (t.dt = s.dt ∧ t.st = s.st) ∨ ∃ op i, s.fetch = some op ∧ decode op = .ok i ∧ exec i s = .next t := by
  obtain ⟨-, rfl⟩ | ⟨-, -, rfl⟩ | ⟨-, -, rfl⟩ | ⟨-, op, -, -, rfl⟩ | ⟨-, hexec⟩ := coreStep_cases h
  · exact .inl ⟨s.haltedStep_dt, s.haltedStep_st⟩
  · exact .inl s.keyWaitRetry_timers
  · exact .inl ⟨s.raise_dt _ _, s.raise_st _ _⟩
  · exact .inl ⟨s.unrecognised_dt op, s.unrecognised_st op⟩
  · exact .inr hexec

theorem State.deliver_dt_le (s : State) : s.deliver.dt.toNat ≤ s.dt.toNat := countDown_le s.dt _

theorem State.deliver_st_le (s : State) : s.deliver.st.toNat ≤ s.st.toNat := countDown_le s.st _

/-- Settles O16: the events before the Step only count the timers down, and the Step keeps a timer unless the
instruction at PC is the one that writes it. -/
theorem timersOnlyFallWithoutAWrite : Obligations.TimersOnlyFallWithoutAWrite := by
  intro s t hstep
  have hdt_le := s.deliver_dt_le
  have hst_le := s.deliver_st_le
  obtain ⟨hdt, hst⟩ | ⟨op, i, hfetch, hdec, hexec⟩ := coreStep_timers_eq_or_exec hstep
  · rw [hdt, hst]
    exact ⟨.inl hdt_le, .inl hst_le⟩
  · rw [State.deliver_fetch] at hfetch
    constructor
    · by_cases hi : ∃ x, i = .ldDTVx x
      · obtain ⟨x, rfl⟩ := hi
        exact .inr ⟨op, x, hfetch, hdec⟩
      · rw [exec_dt hexec (not_exists.1 hi)]
        exact .inl hdt_le
    · by_cases hi : ∃ x, i = .ldSTVx x
      · obtain ⟨x, rfl⟩ := hi
        exact .inr ⟨op, x, hfetch, hdec⟩
      · rw [exec_st hexec (not_exists.1 hi)]
        exact .inl hst_le

end Sys2Proof.Machine
end

section
/-!
PROOFS. Exceptions (60_exceptions.md): every Step answers (R184, R192), the accesses that pass 0xFFF (R182), and the
faults of a Step against the tables of R182 and R183 (R185, R187).
-/

namespace Sys2Proof.Machine

/-! ### Every Step answers (R184, R185, R192) -/

/-- Every meaning ends in a next state, a raise included. -/
theorem exec_answers (i : Instr) (s : State) : ∃ t, exec i s = .next t := by
  cases i <;> exact ⟨_, rfl⟩

theorem coreStep_answers (s : State) : ∃ t, coreStep s = .next t := by
  cases hh : s.halt with
  | true => exact ⟨_, coreStep_halted hh⟩
  | false =>
    cases hw : s.wait with
    | true => exact ⟨_, coreStep_waiting hh hw⟩
    | false =>
      have hr : s.running := ⟨hh, hw⟩
      cases hfetch : s.fetch with
      | none => exact ⟨_, coreStep_fetchFault hr hfetch⟩
      | some op =>
        cases hdec : decode op with
        | error e => exact ⟨_, coreStep_unrecognised hr hfetch hdec⟩
        | ok i => exact coreStep_running hr hfetch hdec ▸ exec_answers i s

/-- Settles O17: each way a Step can go ends in a next state, and so does each instruction. -/
theorem everyStepAnswers : Obligations.EveryStepAnswers :=
  ⟨fun s => coreStep_answers s.deliver, exec_answers⟩

/-! ### Accesses past 0xFFF (R182) -/

/-- Settles O39: out of range each of the four instructions is a raise with its own word. -/
theorem outOfRangeAccessHalts : Obligations.OutOfRangeAccessHalts := by
  refine fun x y n s => ⟨fun hn hx => ?_, fun hx => ?_, fun hx => ?_, fun hx => ?_⟩
  · have hn : 1 ≤ n.toNat := by bv_omega
    exact ⟨_, execDrwVxVyN_faults x y n hn hx, haltedBy_raise s _ _⟩
  · exact ⟨_, execLdBVx_faults x hx, haltedBy_raise s _ _⟩
  · exact ⟨_, execLdMemVx_faults x hx, haltedBy_raise s _ _⟩
  · exact ⟨_, execLdVxMem_faults x hx, haltedBy_raise s _ _⟩

/-! ### The tables of R182 and R183 over a Step (R187) -/

theorem State.fetch_eq_none_iff (s : State) : s.fetch = none ↔ 0xFFE < s.pc.toNat := by
  refine ⟨fun hfetch => ?_, State.fetch_eq_none⟩
  by_contra hpc
  cases hfetch.symm.trans (State.fetch_eq_some (Nat.le_of_not_lt hpc))

theorem stepFault_of_fetch_eq_none {s : State} (hfetch : s.fetch = none) : stepFault s = some .memoryOutOfRange :=
  if_pos (s.fetch_eq_none_iff.1 hfetch)

section
variable {s : State} {op : Word} (hfetch : s.fetch = some op)
include hfetch

theorem stepFault_of_decode_eq_ok {i : Instr} (hdec : decode op = .ok i) : stepFault s = instrFault s i := by
  have hpc := State.pc_le_of_fetch hfetch
  rw [stepFault, if_neg (by omega)]
  simp [hfetch, hdec]

theorem stepFault_of_decode_eq_error {e : Reject} (hdec : decode op = .error e) : stepFault s = none := by
  have hpc := State.pc_le_of_fetch hfetch
  rw [stepFault, if_neg (by omega)]
  simp [hfetch, hdec]

end

/-- The events before the Step change no field that the tables read. -/
@[simp] theorem stepFault_deliver (s : State) : stepFault s.deliver = stepFault s := by
  have hinstr : ∀ i, instrFault s.deliver i = instrFault s i := fun i => by cases i <;> rfl
  simp [stepFault, hinstr]

/-- The Step of a running core raises the fault of the tables with the word fetched, or has none and leaves HALT with
its record alone. -/
theorem coreStep_faults_as_tabled {s t : State} (hr : s.running) (h : coreStep s = .next t) :
    (∃ c, stepFault s = some c ∧ t = s.raise c (s.fetch.getD 0x0000#16)) ∨
    (stepFault s = none ∧ Part.halt.same s t) := by
  obtain ⟨hh, -⟩ | ⟨-, hw, -⟩ | ⟨-, hfetch, rfl⟩ | ⟨-, op, hfetch, hdec, rfl⟩ | ⟨-, op, i, hfetch, hdec, hexec⟩ :=
    coreStep_cases h
  · cases hr.1.symm.trans hh
  · cases hr.2.symm.trans hw
  · exact .inl ⟨_, stepFault_of_fetch_eq_none hfetch, by rw [hfetch]; rfl⟩
  · exact .inr ⟨stepFault_of_decode_eq_error hfetch hdec, KeepsAllBut.unrecognised s op .halt List.not_mem_nil⟩
  · rw [stepFault_of_decode_eq_ok hfetch hdec]
    obtain ⟨c, -, hf, rfl⟩ | hf := exec_cases hexec
    · exact .inl ⟨c, hf, by rw [hfetch, encode_of_decode hdec]; rfl⟩
    · exact .inr ⟨hf, exec_keeps_halt hexec hf⟩

/-- Settles O50: the events before the Step change neither the tables' fault nor the word fetched, and a raise leaves
the record of R185. -/
theorem stepFaultsExactlyAsTabled : Obligations.StepFaultsExactlyAsTabled := by
  intro s t hr hstep
  have hways := coreStep_faults_as_tabled hr.deliver hstep
  rw [stepFault_deliver, State.deliver_fetch] at hways
  obtain ⟨c, hf, rfl⟩ | ⟨hf, hhalt⟩ := hways
  · refine ⟨fun c' hc' => ?_, fun hnone => by cases hf.symm.trans hnone⟩
    cases hf.symm.trans hc'
    exact haltedBy_raise s.deliver _ _
  · exact ⟨fun c hc => (by cases hf.symm.trans hc), fun _ => ⟨hhalt.1.trans hr.1, hhalt⟩⟩

end Sys2Proof.Machine
end

section
/-!
PROOFS. The start of a session (70_reset_and_hazards.md R210, R213): a launch that meets the premises is the reset state
with the image placed, and any other is refused.
-/

namespace Sys2Proof.Machine

/-- The state a session starts in: the image placed in the reset state's memory, PC at its first byte (R210). The jump
leaves no event, as the reset has none. -/
def launchState (l : Launch) : State :=
  (State.reset.setMem (State.reset.mem.writeBytes l.loadAddr l.image)).jump (BitVec.ofNat 16 l.loadAddr)

/-- The premises of R213 as numbers. -/
theorem wellFormed_iff_premises (l : Launch) :
    l.wellFormed = true ↔ 0x200 ≤ l.loadAddr ∧ l.loadAddr ≤ 0xFFE ∧ l.loadAddr + l.image.length ≤ 0x1000 := by
  rw [Launch.wellFormed, Bool.and_eq_true, Bool.and_eq_true, and_assoc]
  exact and_congr decide_eq_true_iff (and_congr decide_eq_true_iff decide_eq_true_iff)

theorem launch_of_wellFormed {l : Launch} (h : l.wellFormed = true) : launch l = .next (launchState l) := by
  obtain ⟨haddr, hfits⟩ := Bool.and_eq_true_iff.1 h
  rw [launch, haddr, hfits]
  rfl

/-- The launch is refused by the first premise it breaks. -/
theorem launch_of_not_wellFormed {l : Launch} (h : ¬ l.wellFormed = true) : ∃ r, launch l = .refused r := by
  unfold launch
  split
  next => exact ⟨_, rfl⟩
  next haddr =>
    split
    next => exact ⟨_, rfl⟩
    next hfits => exact absurd (Bool.and_eq_true_iff.2 ⟨by simpa using haddr, by simpa using hfits⟩) h

section
variable {l : Launch} (haddr : l.loadAddr ≤ 0xFFE)
include haddr

theorem launchState_pc_toNat : (launchState l).pc.toNat = l.loadAddr :=
  (BitVec.toNat_ofNat l.loadAddr 16).trans (Nat.mod_eq_of_lt (by omega))

/-- The image lies inside memory and PC in its bound; the rest of the invariant is the reset state's. -/
theorem inv_launchState (hfits : l.loadAddr + l.image.length ≤ 0x1000) : Inv (launchState l) where
  memory := Memory.writeBytes_wf l.image Memory.reset_wf hfits
  pcBound := by
    rw [launchState_pc_toNat haddr]
    omega
  stackBound := resetMeetsTheInvariant.stackBound
  oneRunState := resetMeetsTheInvariant.oneRunState
  noRecord := resetMeetsTheInvariant.noRecord
  record := fun hh => by cases hh
  suspended := fun hw => by cases hw

end

/-- Settles O57: a launch that meets the premises places the image and moves PC; any other breaks one of them. -/
theorem launchPlacesTheImage : Obligations.LaunchPlacesTheImage := by
  refine fun l => ⟨fun hlow haddr hfits => ?_, fun hbroken => ?_⟩
  · exact ⟨launchState l, launch_of_wellFormed ((wellFormed_iff_premises l).2 ⟨hlow, haddr, hfits⟩),
      inv_launchState haddr hfits, launchState_pc_toNat haddr, Memory.read_writeBytes_at l.image _ l.loadAddr,
      keepsMemOutside_of_writeBytes rfl, rfl,
      ((KeepsAllBut.refl [.mem] State.reset).setMem List.mem_cons_self _).jump _⟩
  · exact launch_of_not_wellFormed fun h => hbroken ((wellFormed_iff_premises l).1 h)

end Sys2Proof.Machine
end
